-- ==== Sys2Proof/Word.lean ====
section
/-! DEFINITION. The widths of the PIT core's data: bytes, index nibbles and command words
(00_scope.md R8: every value is an unsigned integer of a stated width, bit 0 the least significant). -/

namespace Sys2Proof

/-- One 8-bit register, table entry or data operand. -/
abbrev Byte := BitVec 8

/-- The 4-bit index operand `a` of a command word (30_encoding.md R71); also an opcode. -/
abbrev Nibble := BitVec 4

/-- The 16-bit command word presented in parallel on port `cmd` (30_encoding.md R70). -/
abbrev CmdWord := BitVec 16

end Sys2Proof
end

