-- ==== Sys2Proof/Syntax.lean ====
section
/-! DEFINITION. The seven host commands (30_encoding.md R73), each with the operands of R72. TICK and Reset
are hardware events without an encoding (R77) and are no constructors. -/

namespace Sys2Proof

/-- A host command with its operands as the fields of its word give them (30_encoding.md R72). An operand
beyond its legal range is representable: the command then faults when it executes. -/
inductive Instr where
  /-- NOP, 41_display_buffer.md R110. -/
  | nop
  /-- SET_DIGIT pos, value [, DP], 41_display_buffer.md R100. -/
  | setDigit (pos : Nibble) (dp : Bool) (value : BitVec 7)
  /-- SET_LIGHT light, 41_display_buffer.md R104. -/
  | setLight (light : Byte)
  /-- POLL_PRESS sw, 44_press_classifier.md R170. -/
  | pollPress (sw : Nibble)
  /-- LOOKUP value, 40_segment_lookup.md R95. -/
  | lookup (value : Byte)
  /-- TICK_CTL run, 42_tick_source.md R120. -/
  | tickCtl (run : Bool)
  /-- READ_REG idx, 41_display_buffer.md R108. -/
  | readReg (idx : Nibble)
  deriving DecidableEq, Repr

end Sys2Proof
end

