-- ==== Sys2Proof/Decode.lean ====
section
/-! DEFINITION. Decoding of command words by the opcode map of 30_encoding.md R73, total on all 65536 words,
with the reserved words of R74 rejected by name; the encoder from the same format (R71, R72, R78); the
pseudo-instructions of R79. -/

namespace Sys2Proof

/-- The opcodes 0x0 to 0x6 by name (30_encoding.md R73). -/
inductive Opcode where
  | nop | setDigit | setLight | pollPress | lookup | tickCtl | readReg
  deriving DecidableEq, Repr

/-- One row of the opcode map (30_encoding.md R73). -/
structure OpcodeRow where
  opcode : Opcode
  mask : CmdWord
  pattern : CmdWord
  deriving DecidableEq, Repr

/-- The opcode map of 30_encoding.md R73, in its order. -/
def opcodeMap : List OpcodeRow :=
  [ ⟨.nop,       0xFFFF, 0x0000⟩,
    ⟨.setDigit,  0xF000, 0x1000⟩,
    ⟨.setLight,  0xFF00, 0x2000⟩,
    ⟨.pollPress, 0xF0FF, 0x3000⟩,
    ⟨.lookup,    0xFF00, 0x4000⟩,
    ⟨.tickCtl,   0xFFFE, 0x5000⟩,
    ⟨.readReg,   0xF0FF, 0x6000⟩ ]

/-- `W & mask == match` (30_encoding.md R73). -/
def OpcodeRow.selects (r : OpcodeRow) (w : CmdWord) : Bool := w &&& r.mask == r.pattern

/-- The field `op`, bits 15:12 (30_encoding.md R71). -/
def opField (w : CmdWord) : Nibble := w.extractLsb' 12 4

/-- The field `a`, bits 11:8 (30_encoding.md R71). -/
def aField (w : CmdWord) : Nibble := w.extractLsb' 8 4

/-- The field `d`, bits 7:0 (30_encoding.md R71). -/
def dField (w : CmdWord) : Byte := w.extractLsb' 0 8

/-- Operand assembly (30_encoding.md R72): the command of a word whose row is known. -/
def operands (op : Opcode) (w : CmdWord) : Instr :=
  match op with
  | .nop => .nop
  | .setDigit => .setDigit (aField w) (w.getLsbD 7) (w.extractLsb' 0 7)
  | .setLight => .setLight (dField w)
  | .pollPress => .pollPress (aField w)
  | .lookup => .lookup (dField w)
  | .tickCtl => .tickCtl (w.getLsbD 0)
  | .readReg => .readReg (aField w)

/-- Why a word is reserved (30_encoding.md R74). -/
inductive Reserved where
  /-- Opcodes 0x7 to 0xF, with any operand bits. -/
  | unassignedOpcode
  /-- NOP, SET_LIGHT, LOOKUP or TICK_CTL with a non-zero `a`. -/
  | nonzeroIndex
  /-- NOP, POLL_PRESS or READ_REG with a non-zero `d`, TICK_CTL with any of d[7:1] set. -/
  | nonzeroData
  deriving DecidableEq, Repr

/-- The name of the reservation of a word that matches no row: POLL_PRESS and READ_REG have no must-be-zero
`a`; for the others a non-zero `a` is named first. -/
def reservedReason (w : CmdWord) : Reserved :=
  if 7 ≤ (opField w).toNat then .unassignedOpcode
  else if opField w == 0x3 || opField w == 0x6 then .nonzeroData
  else if aField w != 0 then .nonzeroIndex
  else .nonzeroData

/-- What a command word is: a command, or a reserved encoding. -/
inductive Decoded where
  | command (i : Instr)
  | reserved (r : Reserved)
  deriving DecidableEq, Repr

/-- The first row that selects a word (30_encoding.md R73). -/
def selectRow (w : CmdWord) : Option OpcodeRow := opcodeMap.find? (·.selects w)

/-- The decoder (30_encoding.md R73, R74). -/
def decode (w : CmdWord) : Decoded :=
  match selectRow w with
  | some r => .command (operands r.opcode w)
  | none => .reserved (reservedReason w)

/-- The word of a command, its fields laid out from bit 15 to bit 0 (30_encoding.md R71, R72, R78). -/
def encode : Instr → CmdWord
  | .nop => 0x0#4 ++ 0#4 ++ 0#8
  | .setDigit pos dp value => 0x1#4 ++ pos ++ BitVec.ofBool dp ++ value
  | .setLight light => 0x2#4 ++ 0#4 ++ light
  | .pollPress sw => 0x3#4 ++ sw ++ 0#8
  | .lookup value => 0x4#4 ++ 0#4 ++ value
  | .tickCtl run => 0x5#4 ++ 0#4 ++ 0#7 ++ BitVec.ofBool run
  | .readReg idx => 0x6#4 ++ idx ++ 0#8

/-- The row a command belongs to. -/
def Instr.opcode : Instr → Opcode
  | .nop => .nop
  | .setDigit _ _ _ => .setDigit
  | .setLight _ => .setLight
  | .pollPress _ => .pollPress
  | .lookup _ => .lookup
  | .tickCtl _ => .tickCtl
  | .readReg _ => .readReg

/-- The pseudo-instruction `TICK_START` (30_encoding.md R79). -/
def tickStart : Instr := .tickCtl true

/-- The pseudo-instruction `TICK_STOP` (30_encoding.md R79). -/
def tickStop : Instr := .tickCtl false

/-- The pseudo-instruction `BLANK_DIGIT pos`: SET_DIGIT pos, BLANK (30_encoding.md R79). -/
def blankDigit (pos : Nibble) : Instr := .setDigit pos false 0x10

/-- The pseudo-instruction `SHOW4 v0, v1, v2, v3`: four separate commands (30_encoding.md R79). -/
def show4 (v0 v1 v2 v3 : BitVec 7) : List Instr :=
  [.setDigit 0 false v0, .setDigit 1 false v1, .setDigit 2 false v2, .setDigit 3 false v3]

/-- The 16-bit word given by the low `nbits` bits of `w`, the bits above them 0. There is one length only
(30_encoding.md R70) and the word is presented in parallel, so there is no byte order to apply (20_memory.md R51). -/
def tableWord (nbits w : Nat) : CmdWord := BitVec.ofNat 16 (w % 2 ^ nbits)

/-- The command the decoder reads from a row's word; none where it is a reserved encoding. -/
def decodeTableWord (nbits w : Nat) : Option Instr :=
  match decode (tableWord nbits w) with
  | .command i => some i
  | .reserved _ => none

end Sys2Proof
end

