-- ==== Sys2Proof/Config.lean ====
section
/-! DEFINITION. What an instantiation of the PIT core fixes at build time (00_scope.md R6, R7), and
what the spec leaves open: the tick period and the levels of the input ports. -/

namespace Sys2Proof

/-- `DIM_FLOOR` (00_scope.md R7): ticks above it are lit whatever LIGHT is. -/
def dimFloor : Byte := 247

/-- `SHORT_THR` (00_scope.md R7). -/
def shortThr : Byte := 3

/-- `LONG_THR` (00_scope.md R7). -/
def longThr : Byte := 128

/-- `DP_BIT` (40_segment_lookup.md R91): the decimal-point bit of a SegmentCode. -/
def dpBit : Byte := 0x80

/-- The build-time parameters of 00_scope.md R6 ("the model takes these as arguments"); CLK_HZ is used by
no rule and is left out. The PIT core never changes them (log entry 1). -/
structure Params where
  /-- TICK_PERIOD: clock cycles between two ticks while RUN = 1. -/
  tickPeriod : Nat
  /-- PRESC_W: width in bits of the countdown register. -/
  prescW : Nat
  /-- PRESS_SAT: saturation ceiling of PCNT[i]. -/
  pressSat : Byte
  /-- SEG_ROM: the segment lookup table, ROM_SIZE = 20 entries, indices 0x00 to 0x13 (40_segment_lookup.md R94). -/
  segRom : Vector Byte 20
  deriving DecidableEq, Repr

/-- The legal ranges of 00_scope.md R6 and the constraints (b), (c), (d) of 40_segment_lookup.md R92;
(a), that the table is defined on 0x00 to 0x13 and nowhere else, is its type. -/
abbrev Params.Legal (c : Params) : Prop :=
  (2 ≤ c.tickPeriod ∧ c.tickPeriod ≤ 2 ^ c.prescW ∧ 1 ≤ c.prescW ∧ 129#8 ≤ c.pressSat) ∧
  (∀ v : Fin 20, v.val ≤ 0x12 → c.segRom[v].getLsbD 7 = false) ∧
  c.segRom[0x13] = dpBit ∧ c.segRom[0x10] = 0

/-- The free choice behind TICK_PERIOD, which the spec leaves OPEN (00_scope.md R6; log entry 2). -/
opaque Config.freePeriod : Nat

/-- TICK_PERIOD of the machine at reset: some value of the legal range 2 .. 2^16, no particular one. -/
def Config.tickPeriod : Nat := 2 + Config.freePeriod % (2 ^ 16 - 1)

/-- The levels of the input ports at one clock edge (10_state.md R31). -/
structure Inputs where
  /-- `rst`: synchronous reset, active 1. -/
  rst : Bool
  /-- `cmd_valid`: the host presents a command. -/
  cmdValid : Bool
  /-- `cmd`: the command word. -/
  cmd : CmdWord
  /-- `sw_n`: bit i is the raw level of switch i, 0 = pressed, 1 = released. -/
  swN : BitVec 2
  deriving DecidableEq, Repr, Inhabited

/-- The levels of the input ports in a cycle the listed inputs do not cover: the environment's free choice
(20_memory.md R61, 70_reset_and_hazards.md R222; log entry 5), one draw for each number. -/
opaque Config.freeInputs : Nat → Inputs

end Sys2Proof
end

