-- ==== Sys2Proof/Machine/Reference.lean ====
section
/-! DEFINITION. The build-time parameters of the machine at reset: the spec's defaults, and its open tick period. -/

namespace Sys2Proof

/-- The default contents of SEG_ROM, 40_segment_lookup.md R93 (there marked as general knowledge, not DOC's). -/
def defaultSegRom : Vector Byte 20 :=
  #v[0x3F, 0x06, 0x5B, 0x4F, 0x66, 0x6D, 0x7D, 0x07, 0x7F, 0x6F,
     0x77, 0x7C, 0x39, 0x5E, 0x79, 0x71, 0x00, 0x40, 0x74, 0x80]

/-- The parameters of the machine at reset: the spec's defaults (00_scope.md R6, log entry 3) and the
open TICK_PERIOD. -/
def Params.reference : Params where
  tickPeriod := Config.tickPeriod
  prescW := 16
  pressSat := 255
  segRom := defaultSegRom

end Sys2Proof
end

