-- ==== Sys2Proof/Machine/State.lean ====
section
/-! DEFINITION. The state of the PIT core (10_state.md R20) as plain data, its build-time parameters, the
input ports still to come and what the output ports last showed; the causes of a fault; the state after reset. -/

namespace Sys2Proof.Machine

/-- The four causes of a command's fault (60_exceptions.md R192). A fault is ENTERED, not a stop: the command's
step answers a next state with FLT and FCODE set (60_exceptions.md R191, log entry 7). No step of the model
answers `Host.Outcome.fault`: every state of the PIT core has a next step (93_implementation_defined.md). -/
inductive Fault where
  /-- Code 1. Raised by any word that matches no row of the opcode map, and by READ_REG with idx 0xD to 0xF. Safe:
  nothing undefined executes. -/
  | reservedEncoding
  /-- Code 2. Raised by SET_DIGIT with pos > 3. Safe: no slot is written. -/
  | positionOutOfRange
  /-- Code 3. Raised by POLL_PRESS with sw > 1. Safe: no counter is touched. -/
  | switchIdOutOfRange
  /-- Code 4. Raised by SET_DIGIT and LOOKUP with a value above 0x13. Safe: no code is given to such a value. -/
  | valueOutOfDomain
  deriving DecidableEq, Repr

/-- Why the model would give an instruction no meaning. No arm of `exec` answers one: every command is modelled. -/
inductive Refusal where
  /-- An instruction without a meaning, by its mnemonic. Raised by nothing in this model; safe. -/
  | notModelled (mnemonic : String)
  deriving DecidableEq, Repr

/-- The pin events of a TICK, in DOC's names (00_scope.md R9). -/
inductive PinEvent where
  | deselectAllDigits
  | setSegmentBits (code : Byte)
  | selectDigit (d : Fin 4)
  deriving DecidableEq, Repr

/-- The host's side of one clock cycle: nothing presented, or one of the three outcomes of a command
(00_scope.md R11). -/
inductive HostOutcome where
  | idle
  | notAccepted
  | completed
  | faulted (cause : Fault)
  deriving DecidableEq, Repr

/-- What the outputs that are no latches showed in one clock cycle (10_state.md R32), how the host's side of it
ended, and the pin events emitted in it, in order. -/
structure CycleOutputs where
  /-- Port `cmd_ready`. -/
  cmdReady : Bool
  /-- Port `rsp`. -/
  rsp : Byte
  /-- Port `tick`. -/
  tick : Bool
  host : HostOutcome
  pins : List PinEvent
  deriving DecidableEq, Repr

/-- The outputs of a cycle in which no command is accepted and no tick executes: `rsp` is 0x00
(30_encoding.md R75). -/
def CycleOutputs.quiet (ready : Bool) : CycleOutputs where
  cmdReady := ready
  rsp := 0
  tick := false
  host := .idle
  pins := []

/-- The machine. `dbuf` to `fcode` are the complete state of 10_state.md R20; `cfg` are the build-time
parameters (R34, log entry 1); `inputs`, `drawn` and `out` are the model's own (log entries 5 and 6). -/
structure State where
  /-- The build-time parameters; no operation writes them. -/
  cfg : Params
  /-- DBUF[0..3], 10_state.md R21. -/
  dbuf : Vector Byte 4
  /-- LIGHT, 10_state.md R22. -/
  light : Byte
  /-- TCNT, 10_state.md R23. -/
  tcnt : Byte
  /-- HIST[0..1], 10_state.md R24. -/
  hist : Vector Byte 2
  /-- PCNT[0..1], 10_state.md R25. -/
  pcnt : Vector Byte 2
  /-- SEG_OUT, 10_state.md R26. -/
  segOut : Byte
  /-- DIG_SEL, 10_state.md R27. -/
  digSel : BitVec 4
  /-- RUN, bit 0 of TCTL, 10_state.md R28. -/
  run : Bool
  /-- PRESC, 10_state.md R29: a count below TICK_PERIOD (log entry 4). -/
  presc : Nat
  /-- FLT, 10_state.md R30. -/
  flt : Bool
  /-- FCODE, 10_state.md R30. -/
  fcode : BitVec 3
  /-- The input-port levels of the coming cycles, the current cycle's first. -/
  inputs : List Inputs
  /-- How many cycles took their input levels from `Config.freeInputs`. -/
  drawn : Nat
  /-- The outputs of the cycle just executed. -/
  out : CycleOutputs
  deriving DecidableEq, Repr

/-- The machine after reset: the table of 10_state.md R38. -/
def State.reset : State where
  cfg := Params.reference
  dbuf := #v[0x00, 0x00, 0x00, 0x00]
  light := 0x00
  tcnt := 0x00
  hist := #v[0x00, 0x00]
  pcnt := #v[0x00, 0x00]
  segOut := 0x00
  digSel := 0b0000
  run := false
  presc := Params.reference.tickPeriod - 1
  flt := false
  fcode := 0b000
  inputs := []
  drawn := 0
  out := CycleOutputs.quiet false

end Sys2Proof.Machine
end

