-- ==== Sys2Proof/Machine/Flags.lean ====
section
/-! DEFINITION. The PIT core has no condition codes (10_state.md R35). This file holds the conditions that are
computed and consumed inside one operation, and the arithmetic of 00_scope.md R10. -/

namespace Sys2Proof.Machine

/-- The dimming predicate `(t >u 247) or (t >u LIGHT)` (43_multiplexer_debounce.md R143). -/
def lit (t light : Byte) : Bool := decide (dimFloor < t) || decide (light < t)

/-- `t mod 4` (43_multiplexer_debounce.md R141). -/
def digitOf (t : Byte) : Fin 4 := ⟨t.toNat % 4, Nat.mod_lt _ (by decide)⟩

/-- The wrapping increment of TCNT (00_scope.md R10 item 1). -/
def nextTick (t : Byte) : Byte := t + 1

/-- The boundary condition "tick_counter is now exactly 0" of a tick that began at `t`
(43_multiplexer_debounce.md R146). -/
def boundary (t : Byte) : Bool := nextTick t == 0

/-- `1 << d` in 4 bits (00_scope.md R10 item 7). -/
def oneHot (d : Fin 4) : BitVec 4 := 1#4 <<< d.val

/-- `sat_inc` with ceiling `sat` (00_scope.md R10 item 3). -/
def satInc (sat c : Byte) : Byte := if c < sat then c + 1 else sat

/-- The debounce shift `((h << 1) & 0xFF) | s` (00_scope.md R10 item 4). -/
def shiftIn (h : Byte) (level : Bool) : Byte := (h <<< 1) ||| (BitVec.ofBool level).setWidth 8

/-- The results of POLL_PRESS (44_press_classifier.md R170). -/
inductive PressResult where
  | none | short | long
  deriving DecidableEq, Repr

/-- The result codes (30_encoding.md R75). -/
def PressResult.code : PressResult → Byte
  | .none => 0x00
  | .short => 0x01
  | .long => 0x02

/-- The classification decision (44_press_classifier.md R170, R171): both comparisons strict and unsigned. -/
def classify (c : Byte) : PressResult :=
  if longThr < c then .long else if shortThr < c then .short else .none

/-- The cause codes of FCODE (60_exceptions.md R192). -/
def faultCode : Fault → BitVec 3
  | .reservedEncoding => 1
  | .positionOutOfRange => 2
  | .switchIdOutOfRange => 3
  | .valueOutOfDomain => 4

end Sys2Proof.Machine
end

