-- ==== Sys2Proof/Machine/Operands.lean ====
section
/-! DEFINITION. The operand forms of the commands: the range checks of 60_exceptions.md R192, the segment table
(40_segment_lookup.md) and the register index space (20_memory.md R55). -/

namespace Sys2Proof.Machine

/-- The display slot a position names; none above 3 (20_memory.md R52). -/
def slotOf (pos : Nibble) : Option (Fin 4) :=
  if h : pos.toNat < 4 then some ⟨pos.toNat, h⟩ else none

/-- The switch an id names; none above 1 (20_memory.md R52). -/
def switchOf (sw : Nibble) : Option (Fin 2) :=
  if h : sw.toNat < 2 then some ⟨sw.toNat, h⟩ else none

/-- `Rom(v)` (00_scope.md R9): the entry of SEG_ROM at index v; none outside 0x00 to 0x13, since the table has no
value there (40_segment_lookup.md R96). -/
def rom (c : Params) (v : Byte) : Option Byte :=
  if h : v.toNat < 20 then some c.segRom[v.toNat] else none

/-- The decimal-point mask of SET_DIGIT: `0x80 if dp == 1 else 0x00` (41_display_buffer.md R100). -/
def dpMask (dp : Bool) : Byte := if dp then dpBit else 0x00

/-- The registers that have an index (20_memory.md R55). -/
inductive Reg where
  | dbuf (slot : Fin 4)
  | light
  | tcnt
  | hist (sw : Fin 2)
  | pcnt (sw : Fin 2)
  | segOut
  | digSel
  | tctl
  deriving DecidableEq, Repr

/-- The register index map (20_memory.md R55); 0xD, 0xE and 0xF are reserved. -/
def regOf (idx : Nibble) : Option Reg :=
  match idx.toNat with
  | 0x0 => some (.dbuf 0)
  | 0x1 => some (.dbuf 1)
  | 0x2 => some (.dbuf 2)
  | 0x3 => some (.dbuf 3)
  | 0x4 => some .light
  | 0x5 => some .tcnt
  | 0x6 => some (.hist 0)
  | 0x7 => some (.hist 1)
  | 0x8 => some (.pcnt 0)
  | 0x9 => some (.pcnt 1)
  | 0xA => some .segOut
  | 0xB => some .digSel
  | 0xC => some .tctl
  | _ => none

/-- The value of an indexed register as READ_REG returns it: DIG_SEL and TCTL are zero-extended (20_memory.md R55). -/
def readReg (s : State) : Reg → Byte
  | .dbuf p => s.dbuf[p]
  | .light => s.light
  | .tcnt => s.tcnt
  | .hist i => s.hist[i]
  | .pcnt i => s.pcnt[i]
  | .segOut => s.segOut
  | .digSel => s.digSel.setWidth 8
  | .tctl => (BitVec.ofBool s.run).setWidth 8

/-- `sample_switch(i)` (00_scope.md R9): the raw level of switch line i; true is level 1, released. -/
def sampleSwitch (swN : BitVec 2) (i : Fin 2) : Bool := swN.getLsbD i

end Sys2Proof.Machine
end

