-- ==== Sys2Proof/Machine/Ops.lean ====
section
/-! DEFINITION. The named operations every command and the cycle step share: taking the input-port levels of a
cycle, completing a command, entering a fault and leaving it (reset), the register writes, the countdown. -/

namespace Sys2Proof.Machine

/-- The levels of the input ports in the current cycle: listed, or the environment's free choice (log entry 5). -/
def currentInputs (s : State) : Inputs :=
  match s.inputs with
  | i :: _ => i
  | [] => Config.freeInputs s.drawn

/-- The clock moves on: the current cycle's input levels are used up. -/
def passInputs (s : State) : State :=
  match s.inputs with
  | _ :: rest => { s with inputs := rest }
  | [] => { s with drawn := s.drawn + 1 }

/-- `tick` is due: RUN = 1 and PRESC = 0 (42_tick_source.md R124). -/
def tickDue (s : State) : Bool := s.run && s.presc == 0

/-- An accepted command completes and returns `rsp` (00_scope.md R11, 30_encoding.md R75). -/
def complete (rsp : Byte) (s : State) : State :=
  { s with out := { cmdReady := true, rsp := rsp, tick := false, host := .completed, pins := [] } }

/-- Entering a fault (60_exceptions.md R191, R194): FLT and FCODE, and nothing else of the state; no value is
returned and `rsp` shows 0x00 (30_encoding.md R75). -/
def takeFault (cause : Fault) (s : State) : State :=
  { s with
    flt := true
    fcode := faultCode cause
    out := { cmdReady := true, rsp := 0, tick := false, host := .faulted cause, pins := [] } }

/-- Reset (70_reset_and_hazards.md R220), the only way out of a fault (60_exceptions.md R197): every item of the
state takes its value of 10_state.md R38; the build-time parameters and the inputs to come are untouched. -/
def applyReset (s : State) : State :=
  { s with
    dbuf := #v[0x00, 0x00, 0x00, 0x00]
    light := 0x00
    tcnt := 0x00
    hist := #v[0x00, 0x00]
    pcnt := #v[0x00, 0x00]
    segOut := 0x00
    digSel := 0b0000
    run := false
    presc := s.cfg.tickPeriod - 1
    flt := false
    fcode := 0b000
    out := CycleOutputs.quiet false }

/-- The store of a whole SegmentCode into one slot (41_display_buffer.md R100, R101). -/
def setSlot (p : Fin 4) (code : Byte) (s : State) : State := { s with dbuf := s.dbuf.set p code }

/-- The store into LIGHT (41_display_buffer.md R104). -/
def setLight (light : Byte) (s : State) : State := { s with light := light }

/-- The clear of a press counter (44_press_classifier.md R170). -/
def clearPress (i : Fin 2) (s : State) : State := { s with pcnt := s.pcnt.set i 0x00 }

/-- PRESC <- TICK_PERIOD - 1 (42_tick_source.md R120, R124). -/
def reloadCountdown (s : State) : State := { s with presc := s.cfg.tickPeriod - 1 }

/-- The write of RUN, with the reload of PRESC on a 0-to-1 change only (42_tick_source.md R120, R121). -/
def setRun (run : Bool) (s : State) : State :=
  let s' := if !s.run && run then reloadCountdown s else s
  { s' with run := run }

/-- The countdown of a cycle without a tick: PRESC counts down by one while RUN = 1 (42_tick_source.md R124). -/
def countdown (s : State) : State := if s.run then { s with presc := s.presc - 1 } else s

/-- A cycle without reset in which neither a tick nor a command executes; there `cmd_ready` is 1 unless a command
has faulted (42_tick_source.md R126). -/
def quietCycle (s : State) : State := { s with out := CycleOutputs.quiet (!s.flt) }

/-- Records that a command was presented and not accepted, if one was (00_scope.md R11, 30_encoding.md R76). -/
def markRefused (presented : Bool) (s : State) : State :=
  { s with out := { s.out with host := if presented then .notAccepted else .idle } }

end Sys2Proof.Machine
end

