-- ==== Sys2Proof/Machine/DisplayBuffer.lean ====
section
/-! DEFINITION. The commands of 41_display_buffer.md: NOP, SET_DIGIT, SET_LIGHT, READ_REG. -/

namespace Sys2Proof.Machine

/-- NOP, 41_display_buffer.md R110. -/
def execNop (s : State) : Host.Outcome State Fault Refusal := .next (complete 0x00 s)

/-- SET_DIGIT pos, value [, DP], 41_display_buffer.md R100; the position is checked before the value
(60_exceptions.md R195). -/
def execSetDigit (pos : Nibble) (dp : Bool) (value : BitVec 7) (s : State) : Host.Outcome State Fault Refusal :=
  match slotOf pos with
  | none => .next (takeFault .positionOutOfRange s)
  | some p =>
    match rom s.cfg (value.setWidth 8) with
    | none => .next (takeFault .valueOutOfDomain s)
    | some code => .next (complete 0x00 (setSlot p (code ||| dpMask dp) s))

/-- SET_LIGHT light, 41_display_buffer.md R104. -/
def execSetLight (light : Byte) (s : State) : Host.Outcome State Fault Refusal :=
  .next (complete 0x00 (setLight light s))

/-- READ_REG idx, 41_display_buffer.md R108. -/
def execReadReg (idx : Nibble) (s : State) : Host.Outcome State Fault Refusal :=
  match regOf idx with
  | none => .next (takeFault .reservedEncoding s)
  | some r => .next (complete (readReg s r) s)

end Sys2Proof.Machine
end

