-- ==== Sys2Proof/Machine/PressClassifier.lean ====
section
/-! DEFINITION. The command of 44_press_classifier.md: POLL_PRESS. -/

namespace Sys2Proof.Machine

/-- POLL_PRESS sw, 44_press_classifier.md R170: one atomic read, classification and conditional clear (R172). -/
def execPollPress (sw : Nibble) (s : State) : Host.Outcome State Fault Refusal :=
  match switchOf sw with
  | none => .next (takeFault .switchIdOutOfRange s)
  | some i =>
    if s.hist[i] ≠ 0 then .next (complete (classify s.pcnt[i]).code (clearPress i s))
    else .next (complete PressResult.none.code s)

end Sys2Proof.Machine
end

