-- ==== Sys2Proof/Machine/SegmentLookup.lean ====
section
/-! DEFINITION. The command of 40_segment_lookup.md: LOOKUP. -/

namespace Sys2Proof.Machine

/-- LOOKUP value, 40_segment_lookup.md R95, R96. -/
def execLookup (value : Byte) (s : State) : Host.Outcome State Fault Refusal :=
  match rom s.cfg value with
  | none => .next (takeFault .valueOutOfDomain s)
  | some code => .next (complete code s)

end Sys2Proof.Machine
end

