-- ==== Sys2Proof/Machine/TickSource.lean ====
section
/-! DEFINITION. The command of 42_tick_source.md: TICK_CTL. -/

namespace Sys2Proof.Machine

/-- TICK_CTL run, 42_tick_source.md R120. -/
def execTickCtl (run : Bool) (s : State) : Host.Outcome State Fault Refusal :=
  .next (complete 0x00 (setRun run s))

end Sys2Proof.Machine
end

