-- ==== Sys2Proof/Machine/Dispatch.lean ====
section
/-! DEFINITION. The meaning of each accepted host command, one arm a constructor. -/

namespace Sys2Proof.Machine

-- What an ACCEPTED command does (30_encoding.md R76); the countdown of its cycle stands in Machine/Cycle.lean.
def exec (i : Instr) (s : State) : Host.Outcome State Fault Refusal :=
  match i with
  | .nop => Sys2Proof.Machine.execNop s
  | .setDigit pos dp value => Sys2Proof.Machine.execSetDigit pos dp value s
  | .setLight light => Sys2Proof.Machine.execSetLight light s
  | .pollPress sw => Sys2Proof.Machine.execPollPress sw s
  | .lookup value => Sys2Proof.Machine.execLookup value s
  | .tickCtl run => Sys2Proof.Machine.execTickCtl run s
  | .readReg idx => Sys2Proof.Machine.execReadReg idx s

end Sys2Proof.Machine
end

