-- ==== Sys2Proof/Machine/Multiplexer.lean ====
section
/-! DEFINITION. The hardware operation TICK of 43_multiplexer_debounce.md: multiplexer, dimming, debounce and
press-duration accumulation. -/

namespace Sys2Proof.Machine

/-- The pin events of a tick that began at TCNT = t, in their order (43_multiplexer_debounce.md R152). -/
def tickPins (s : State) : List PinEvent :=
  let digit := digitOf s.tcnt
  if lit s.tcnt s.light then [.deselectAllDigits, .setSegmentBits s.dbuf[digit], .selectDigit digit]
  else [.deselectAllDigits]

/-- Step 5 for one switch: a boundary tick that finds HIST[i] = 0 counts (43_multiplexer_debounce.md R147). -/
def accumulate (s : State) (i : Fin 2) : Byte :=
  if boundary s.tcnt && s.hist[i] == 0 then satInc s.cfg.pressSat s.pcnt[i] else s.pcnt[i]

/-- TICK(s0, s1), 43_multiplexer_debounce.md R140: every right-hand side reads the state before the tick. -/
def tick (swN : BitVec 2) (s : State) : State :=
  let digit := digitOf s.tcnt
  let on := lit s.tcnt s.light
  { s with
    digSel := if on then oneHot digit else 0b0000
    segOut := if on then s.dbuf[digit] else s.segOut
    tcnt := nextTick s.tcnt
    pcnt := #v[accumulate s 0, accumulate s 1]
    hist := #v[shiftIn s.hist[0] (sampleSwitch swN 0), shiftIn s.hist[1] (sampleSwitch swN 1)]
    out := { cmdReady := false, rsp := 0, tick := true, host := .idle, pins := tickPins s } }

end Sys2Proof.Machine
end

