-- ==== Sys2Proof/Machine/Cycle.lean ====
section
/-! DEFINITION. One rising edge of `clk` (42_tick_source.md R124), the output ports of a cycle (10_state.md R32),
and the event-level view of a cycle (20_memory.md R62). -/

namespace Sys2Proof.Machine

/-- An accepted word: its command executes, or it is reserved and faults (30_encoding.md R74, R76). -/
def execWord (w : CmdWord) (s : State) : Host.Outcome State Fault Refusal :=
  match decode w with
  | .command i => exec i s
  | .reserved _ => .next (takeFault .reservedEncoding s)

/-- The tick of a cycle: TICK, and PRESC reloads (42_tick_source.md R124). -/
def tickCycle (swN : BitVec 2) (s : State) : State := reloadCountdown (tick swN s)

/-- The cycle step (42_tick_source.md R124): reset, else a due tick, else the countdown and an accepted
command. A command reads nothing that the countdown writes, and TICK_CTL's write of PRESC comes after it. -/
def clockCycle (s : State) : Host.Outcome State Fault Refusal :=
  let i := currentInputs s
  let s1 := passInputs s
  if i.rst then .next (markRefused i.cmdValid (applyReset s1))
  else if tickDue s then .next (markRefused i.cmdValid (tickCycle i.swN s1))
  else if i.cmdValid && !s.flt then execWord i.cmd (countdown s1)
  else .next (markRefused i.cmdValid (quietCycle (countdown s1)))

/-- The output ports in one clock cycle (10_state.md R32). -/
structure OutputPorts where
  seg : Byte
  dig : BitVec 4
  cmdReady : Bool
  rsp : Byte
  tick : Bool
  fault : Bool
  faultCode : BitVec 3
  deriving DecidableEq, Repr

/-- The output ports during the cycle that begins in state `s`: the latches as they stand, and what the cycle's
own step shows on `cmd_ready`, `rsp` and `tick` (10_state.md R32, 30_encoding.md R75). -/
def portsThisCycle (s : State) : OutputPorts :=
  let o : CycleOutputs := match clockCycle s with
    | .next t => t.out
    | _ => CycleOutputs.quiet false
  { seg := s.segOut, dig := s.digSel, cmdReady := o.cmdReady, rsp := o.rsp, tick := o.tick
    fault := s.flt, faultCode := s.fcode }

/-- The events of the event-level view (20_memory.md R62). -/
inductive Event where
  | hostCmd (w : CmdWord)
  | tick (swN : BitVec 2)
  | reset
  deriving DecidableEq, Repr

/-- The event of the cycle that begins in state `s`; none where only the countdown moves. -/
def cycleEvent (s : State) : Option Event :=
  let i := currentInputs s
  if i.rst then some .reset
  else if tickDue s then some (.tick i.swN)
  else if i.cmdValid && !s.flt then some (.hostCmd i.cmd)
  else none

/-- One event on the state, without the clock. -/
def applyEvent (e : Event) (s : State) : State :=
  match e with
  | .hostCmd w =>
    match execWord w s with
    | .next t => t
    | _ => s
  | .tick swN => tick swN s
  | .reset => applyReset s

/-- The levels a fetch needs so that the current cycle accepts `w`: no reset, and `w` presented. -/
def presenting (w : CmdWord) (i : Inputs) : Inputs := { i with rst := false, cmdValid := true, cmd := w }

/-- Makes the port ready (42_tick_source.md R126) without touching anything else: a latched fault is taken back,
a due tick is put off by one cycle. -/
def readied (s : State) : State :=
  { s with
    flt := false
    fcode := if s.flt then 0 else s.fcode
    presc := if tickDue s then 1 else s.presc }

/-- The host presents the word `w` in the current cycle, in place of what the current cycle's inputs were. -/
def withCommand (w : CmdWord) (s : State) : State :=
  let s1 := passInputs (readied s)
  { s1 with inputs := presenting w (currentInputs s) :: s1.inputs }

end Sys2Proof.Machine
end

