-- ==== Sys2Proof/Machine/Step.lean ====
section
/-! DEFINITION. One step of the machine is one clock cycle; and how a command word is put where the next step
takes it. -/

namespace Sys2Proof.Machine

/-- One rising edge of `clk` (42_tick_source.md R124). -/
def step (s : State) : Host.Outcome State Fault Refusal := clockCycle s

/-- `s` with the word presented on the command port in the current cycle and the port ready (log entry 8). -/
def State.withFetchWord (s : State) (nbits w : Nat) : State := withCommand (tableWord nbits w) s

end Sys2Proof.Machine
end

