-- ==== Sys2Proof/WellFormed.lean ====
section
/-! DEFINITION. Which commands have every operand in its legal range (the "legal" column of 30_encoding.md
R72). A command that is not well formed is still decoded and executed: it faults (60_exceptions.md R192). -/

namespace Sys2Proof

/-- A display position is 0 to 3 (30_encoding.md R72). -/
def posLegal (pos : Nibble) : Bool := pos.toNat ≤ 3

/-- A switch id is 0 or 1 (30_encoding.md R72). -/
def swLegal (sw : Nibble) : Bool := sw.toNat ≤ 1

/-- A lookup value is 0x00 to 0x13 (30_encoding.md R72, 40_segment_lookup.md R94). -/
def valueLegal (value : Nat) : Bool := value ≤ 0x13

/-- A register index is 0x0 to 0xC (30_encoding.md R72, 20_memory.md R55). -/
def idxLegal (idx : Nibble) : Bool := idx.toNat ≤ 0xC

/-- Every operand is in its legal range. -/
def Instr.wellFormed : Instr → Bool
  | .nop => true
  | .setDigit pos _ value => posLegal pos && valueLegal value.toNat
  | .setLight _ => true
  | .pollPress sw => swLegal sw
  | .lookup value => valueLegal value.toNat
  | .tickCtl _ => true
  | .readReg idx => idxLegal idx

end Sys2Proof
end

