-- ==== Sys2Proof/Safety.lean ====
section
/-! DEFINITION. The terms claims use: a safe state, the invariants of 10_state.md R40, runs of clock cycles, of
ticks and of events, and the derived per-switch states of 10_state.md R39. -/

namespace Sys2Proof.Machine

/-- No command has faulted since reset: FLT = 0 (10_state.md R30). A state with FLT = 1 is never a final state
of a good run (60_exceptions.md R191). -/
def Safe (s : State) : Prop := s.flt = false

/-- The invariants (a) to (d) of 10_state.md R40, with the legal parameters they are stated over; for (d) the
other half too: after a fault FCODE is one of the codes 1 to 4 (60_exceptions.md R192). -/
structure Inv (s : State) : Prop where
  legal : s.cfg.Legal
  digSel : s.digSel = 0b0000 ∨ ∃ d : Fin 4, s.digSel = 1#4 <<< d.val
  pcnt : ∀ i : Fin 2, s.pcnt[i] ≤ s.cfg.pressSat
  presc : s.presc ≤ s.cfg.tickPeriod - 1
  noFault : s.flt = false → s.fcode = 0
  faultCode : s.flt = true → 1 ≤ s.fcode.toNat ∧ s.fcode.toNat ≤ 4

/-- The outputs of a cycle whose command completed and returned `rsp` (30_encoding.md R75). -/
def completedOutputs (rsp : Byte) : CycleOutputs where
  cmdReady := true
  rsp := rsp
  tick := false
  host := .completed
  pins := []

/-- The outputs of a cycle whose command faulted: no value is returned, the port shows 0x00 (30_encoding.md R75). -/
def faultedOutputs (cause : Fault) : CycleOutputs where
  cmdReady := true
  rsp := 0x00
  tick := false
  host := .faulted cause
  pins := []

/-- `u 0`, …, `u n` are the states at the starts of n + 1 successive clock cycles. -/
def Trace (n : Nat) (u : Nat → State) : Prop := ∀ j < n, step (u j) = .next (u (j + 1))

/-- Successive ticks, one for each pair of switch levels, with nothing between them. -/
def tickRun (levels : List (BitVec 2)) (s : State) : State := levels.foldl (fun s w => tick w s) s

/-- A run of the event-level view (20_memory.md R62). -/
def runEvents (es : List Event) (s : State) : State := es.foldl (fun s e => applyEvent e s) s

/-- The state as the event-level view sees it: PRESC, the clocked inputs and the port record aside
(20_memory.md R62). -/
def eventView (s : State) : State :=
  { s with presc := 0, inputs := [], drawn := 0, out := CycleOutputs.quiet false }

/-- The events of the cycles `u 0`, …, `u (n - 1)` of a trace, in order. -/
def traceEvents (n : Nat) (u : Nat → State) : List Event := (List.range n).filterMap fun j => cycleEvent (u j)

/-- The number of boundary ticks of an event run that found HIST[i] = 0 (43_multiplexer_debounce.md R156). -/
def countedWindows (i : Fin 2) : List Event → State → Nat
  | [], _ => 0
  | e :: es, s =>
    let here := match e with
      | .tick _ => if s.tcnt = 255 ∧ s.hist[i] = 0 then 1 else 0
      | _ => 0
    here + countedWindows i es (applyEvent e s)

/-- An event that clears PCNT[i] or may clear it: reset, or a POLL_PRESS of switch i that finds HIST[i] ≠ 0
(44_press_classifier.md R176, R178). -/
def clearsPress (i : Fin 2) (e : Event) (s : State) : Bool :=
  match e with
  | .reset => true
  | .tick _ => false
  | .hostCmd w =>
    match decode w with
    | .command (.pollPress sw) => sw.toNat == i.val && s.hist[i] != 0
    | _ => false

/-- No event of the run clears PCNT[i]. -/
def neverClears (i : Fin 2) : List Event → State → Prop
  | [], _ => True
  | e :: es, s => clearsPress i e s = false ∧ neverClears i es (applyEvent e s)

/-- The conditions 10_state.md R39 names for one switch. -/
inductive PressState where
  | idle | pressing | reportPending
  deriving DecidableEq, Repr

/-- The named condition a switch is in (10_state.md R39). -/
def pressState (s : State) (i : Fin 2) : PressState :=
  if s.hist[i] = 0 then .pressing else if s.pcnt[i] = 0 then .idle else .reportPending

end Sys2Proof.Machine
end

