-- ==== Sys2Proof/Certificates/Slice0/Obligations.lean ====
section
/-! DEFINITION. The statements for the provers, from the numbered rules of spec/. They hold in every state, for
every choice of the build-time parameters unless a hypothesis says `Legal`, and for every input of the environment. -/

open Sys2Proof Sys2Proof.Machine

/-! ## Encoding -/

/-- One word of each command, and reserved words, written out from the patterns of 30_encoding.md R73 and R74. That
the three last words are reserved is the spec's; the names of the reasons (`nonzeroIndex`, `nonzeroData`,
`unassignedOpcode`) are the model's own choice (log entry 17). -/
def Obligations.DecodesWordsOfTheOpcodeMap : Prop :=
  decode 0b0000000000000000 = .command .nop ∧
  decode 0b0001001010000111 = .command (.setDigit 2 true 0x07) ∧
  decode 0b0010000011001000 = .command (.setLight 200) ∧
  decode 0b0011000100000000 = .command (.pollPress 1) ∧
  decode 0b0100000000010010 = .command (.lookup 0x12) ∧
  decode 0b0101000000000001 = .command (.tickCtl true) ∧
  decode 0b0110101100000000 = .command (.readReg 0xB) ∧
  decode 0b0010111100000000 = .reserved .nonzeroIndex ∧
  decode 0b0011000110000000 = .reserved .nonzeroData ∧
  decode 0b1010010110100101 = .reserved .unassignedOpcode

/-- Decoding the word of any command gives the command back, every operand at every value its field admits. -/
def Obligations.DecodeInvertsEncode : Prop :=
  ∀ i : Instr, decode (encode i) = .command i

/-- A word that decodes to a command is that command's word: each word has one meaning and no bit is dropped. -/
def Obligations.EncodeInvertsDecode : Prop :=
  ∀ (w : CmdWord) (i : Instr), decode w = .command i → encode i = w

/-- The opcode map of 30_encoding.md R73, row by row: which words are which command; no word is two, and a word
that matches no row is reserved. -/
def Obligations.OpcodeMapSelectsCommands : Prop :=
  ∀ w : CmdWord,
    (decode w = .command .nop ↔ w &&& 0xFFFF = 0x0000) ∧
    ((∃ pos dp value, decode w = .command (.setDigit pos dp value)) ↔ w &&& 0xF000 = 0x1000) ∧
    ((∃ light, decode w = .command (.setLight light)) ↔ w &&& 0xFF00 = 0x2000) ∧
    ((∃ sw, decode w = .command (.pollPress sw)) ↔ w &&& 0xF0FF = 0x3000) ∧
    ((∃ value, decode w = .command (.lookup value)) ↔ w &&& 0xFF00 = 0x4000) ∧
    ((∃ run, decode w = .command (.tickCtl run)) ↔ w &&& 0xFFFE = 0x5000) ∧
    ((∃ idx, decode w = .command (.readReg idx)) ↔ w &&& 0xF0FF = 0x6000) ∧
    ((∃ r, decode w = .reserved r) ↔
      ¬ (w &&& 0xFFFF = 0x0000 ∨ w &&& 0xF000 = 0x1000 ∨ w &&& 0xFF00 = 0x2000 ∨ w &&& 0xF0FF = 0x3000 ∨
        w &&& 0xFF00 = 0x4000 ∨ w &&& 0xFFFE = 0x5000 ∨ w &&& 0xF0FF = 0x6000)) ∧
    (∀ r ∈ opcodeMap, ∀ r' ∈ opcodeMap, w &&& r.mask = r.pattern → w &&& r'.mask = r'.pattern → r = r')

/-- The reserved words of 30_encoding.md R74, by their fields op, a and d; an accepted one, like READ_REG with
idx 0xD to 0xF, faults with code 1 and writes nothing else. -/
def Obligations.ReservedWordsFault : Prop :=
  ∀ (w : CmdWord) (s : State),
    let op := w.toNat / 4096
    let a := w.toNat / 256 % 16
    let d := w.toNat % 256
    ((∃ r, decode w = .reserved r) ↔
      (7 ≤ op ∨ (op = 0 ∧ (a ≠ 0 ∨ d ≠ 0)) ∨ ((op = 2 ∨ op = 4 ∨ op = 5) ∧ a ≠ 0) ∨
        ((op = 3 ∨ op = 6) ∧ d ≠ 0) ∨ (op = 5 ∧ 2 ≤ d))) ∧
    ((∃ r, decode w = .reserved r) ∨ (op = 6 ∧ d = 0 ∧ 0xD ≤ a) →
      execWord w s = .next { s with flt := true, fcode := 1, out := faultedOutputs .reservedEncoding })

/-! ## Reset and invariants -/

/-- The table of 10_state.md R38, for the reset state of the model. PRESC and the parameters are as the
instantiation fixes them; PRESC is TICK_PERIOD - 1. -/
def Obligations.ResetStateValues : Prop :=
  (∀ p : Fin 4, State.reset.dbuf[p] = 0x00) ∧ State.reset.light = 0x00 ∧ State.reset.tcnt = 0x00 ∧
  (∀ i : Fin 2, State.reset.hist[i] = 0x00) ∧ (∀ i : Fin 2, State.reset.pcnt[i] = 0x00) ∧
  State.reset.segOut = 0x00 ∧ State.reset.digSel = 0b0000 ∧ State.reset.run = false ∧
  State.reset.presc = State.reset.cfg.tickPeriod - 1 ∧ State.reset.flt = false ∧ State.reset.fcode = 0b000 ∧
  State.reset.cfg.Legal

/-- 70_reset_and_hazards.md R220: in a cycle with `rst` = 1 every item takes its reset value, whatever the state,
a due tick or a presented command; neither executes; SEG_ROM is not affected. `cmd_ready` = 0 and `rsp` = 0x00 in that
cycle are 42_tick_source.md R126 and 30_encoding.md R75. That reset emits no pin event (`t.out.pins = []`) is the
model's choice (log entry 14). -/
def Obligations.RstCycleResetsEverything : Prop :=
  ∀ s : State, (currentInputs s).rst = true → ∃ t, step s = .next t ∧
    (∀ p : Fin 4, t.dbuf[p] = 0x00) ∧ t.light = 0x00 ∧ t.tcnt = 0x00 ∧
    (∀ i : Fin 2, t.hist[i] = 0x00) ∧ (∀ i : Fin 2, t.pcnt[i] = 0x00) ∧
    t.segOut = 0x00 ∧ t.digSel = 0b0000 ∧ t.run = false ∧ t.presc = s.cfg.tickPeriod - 1 ∧
    t.flt = false ∧ t.fcode = 0b000 ∧ t.cfg = s.cfg ∧
    t.out.tick = false ∧ t.out.cmdReady = false ∧ t.out.rsp = 0x00 ∧ t.out.pins = [] ∧
    t.out.host = (if (currentInputs s).cmdValid then .notAccepted else .idle)

/-- The invariants of 10_state.md R40 hold at reset. (The spec marks R40 as its own inference.) That the parameters of
the reset state are legal, which `Inv` contains, is the model's choice: the spec's defaults (log entry 3) and a free
legal TICK_PERIOD (log entry 2). -/
def Obligations.InvariantsHoldAtReset : Prop := Inv State.reset

/-- Every clock cycle keeps the invariants of 10_state.md R40 (a) to (d), and (e) holds of it: a tick needs RUN = 1.
(The spec marks R40 as its own inference.) -/
def Obligations.EveryCycleKeepsInvariants : Prop :=
  ∀ s t : State, Inv s → step s = .next t → Inv t ∧ (s.run = false → t.out.tick = false)

/-- No clock cycle stops the machine (42_tick_source.md R124: "At every rising edge of `clk` exactly one of the
following happens"). -/
def Obligations.EveryStateHasANextStep : Prop :=
  ∀ s : State, ∃ t, step s = .next t ∧ t.cfg = s.cfg

/-! ## The commands: results, frames and completion -/

/-- NOP (41_display_buffer.md R110) completes in every state, returns 0x00 and writes nothing; any other word with
op = 0x0 is reserved and faults with code 1. -/
def Obligations.NopChangesNothing : Prop :=
  ∀ s : State, (encode .nop).toNat = 0x0000 ∧ exec .nop s = .next { s with out := completedOutputs 0x00 } ∧
    ∀ w : CmdWord, w.toNat / 4096 = 0 → w ≠ 0 →
      execWord w s = .next { s with flt := true, fcode := 1, out := faultedOutputs .reservedEncoding }

/-- SET_DIGIT (41_display_buffer.md R100), every form: its word, the position check, then the value check, then
one store of the whole code into DBUF[pos] and nothing else; DP_ONLY, and BLANK with the decimal point, store 0x80. -/
def Obligations.SetDigitStoresWholeCode : Prop :=
  ∀ (pos : Nibble) (dp : Bool) (value : BitVec 7) (s : State),
    ((encode (.setDigit pos dp value)).toNat =
      0x1000 + 0x100 * pos.toNat + (if dp then 0x80 else 0) + value.toNat) ∧
    (3 < pos.toNat → exec (.setDigit pos dp value) s =
      .next { s with flt := true, fcode := 2, out := faultedOutputs .positionOutOfRange }) ∧
    (pos.toNat ≤ 3 → 0x13 < value.toNat → exec (.setDigit pos dp value) s =
      .next { s with flt := true, fcode := 4, out := faultedOutputs .valueOutOfDomain }) ∧
    (∀ (p : Fin 4) (v : Fin 20), pos.toNat = p.val → value.toNat = v.val →
      ∃ t, exec (.setDigit pos dp value) s = .next t ∧
        t.dbuf[p] = s.cfg.segRom[v] ||| (if dp then 0x80 else 0x00) ∧
        (∀ q : Fin 4, q ≠ p → t.dbuf[q] = s.dbuf[q]) ∧
        t = { s with dbuf := t.dbuf, out := completedOutputs 0x00 } ∧
        (s.cfg.Legal → v = 0x13 ∨ (v = 0x10 ∧ dp = true) → t.dbuf[p] = 0x80))

/-- 41_display_buffer.md R102: after a completing SET_DIGIT p, whatever ticks and other commands follow (no reset,
no other SET_DIGIT to p), READ_REG p returns `Rom(v) | (dp << 7)`; the command itself leaves every other slot and
register; events other than SET_DIGIT and reset do not alter DBUF. -/
def Obligations.SetDigitReadsBackAfterAnyRun : Prop :=
  ∀ (p : Fin 4) (v : Fin 20) (pos : Nibble) (dp : Bool) (value : BitVec 7) (s t u : State) (es : List Event),
    pos.toNat = p.val → value.toNat = v.val → exec (.setDigit pos dp value) s = .next t →
    (∀ e ∈ es, e ≠ .reset ∧
      ∀ w dp' value', e = .hostCmd w → decode w ≠ .command (.setDigit pos dp' value')) →
    u = runEvents es t →
    exec (.readReg pos) u =
      .next { u with out := completedOutputs (s.cfg.segRom[v] ||| ((BitVec.ofBool dp).setWidth 8 <<< 7)) } ∧
    (∀ q : Fin 4, q ≠ p → t.dbuf[q] = s.dbuf[q]) ∧
    t = { s with dbuf := t.dbuf, out := completedOutputs 0x00 } ∧
    ((∀ w pos' dp' value', .hostCmd w ∈ es → decode w ≠ .command (.setDigit pos' dp' value')) →
      u.dbuf = t.dbuf)

/-- 41_display_buffer.md R103: after SET_DIGIT the decimal-point bit of the slot is `dp`, but for value 0x13, where
it is 1 whatever `dp` is. (The spec marks R103 as its own inference.) -/
def Obligations.DecimalPointBitOfStoredSlot : Prop :=
  ∀ (p : Fin 4) (pos : Nibble) (dp : Bool) (value : BitVec 7) (s : State),
    s.cfg.Legal → pos.toNat = p.val → value.toNat ≤ 0x13 →
    ∃ t, exec (.setDigit pos dp value) s = .next t ∧
      (value.toNat ≤ 0x12 → t.dbuf[p].getLsbD 7 = dp) ∧ (value.toNat = 0x13 → t.dbuf[p].getLsbD 7 = true)

/-- SET_LIGHT (41_display_buffer.md R104) completes for every value and writes LIGHT only; a word with op = 0x2 and
a non-zero `a` field faults with code 1. -/
def Obligations.SetLightStoresOperand : Prop :=
  ∀ (light : Byte) (s : State),
    (encode (.setLight light)).toNat = 0x2000 + light.toNat ∧
    exec (.setLight light) s = .next { s with light := light, out := completedOutputs 0x00 } ∧
    ∀ w : CmdWord, w.toNat / 4096 = 2 → w.toNat / 256 % 16 ≠ 0 →
      execWord w s = .next { s with flt := true, fcode := 1, out := faultedOutputs .reservedEncoding }

/-- The register index map of 20_memory.md R55, index by index, and READ_REG's frame (41_display_buffer.md R108):
no register is written; indices 0xD to 0xF, and words with op = 0x6 and a non-zero `d` field, fault with code 1. -/
def Obligations.ReadRegReturnsIndexedRegister : Prop :=
  ∀ s : State,
    let returns (idx : Nibble) (v : Byte) : Prop := exec (.readReg idx) s = .next { s with out := completedOutputs v }
    let faults (idx : Nibble) : Prop := exec (.readReg idx) s =
      .next { s with flt := true, fcode := 1, out := faultedOutputs .reservedEncoding }
    (returns 0x0 s.dbuf[0] ∧ returns 0x1 s.dbuf[1] ∧ returns 0x2 s.dbuf[2] ∧ returns 0x3 s.dbuf[3]) ∧
    (returns 0x4 s.light ∧ returns 0x5 s.tcnt ∧ returns 0x6 s.hist[0] ∧ returns 0x7 s.hist[1]) ∧
    (returns 0x8 s.pcnt[0] ∧ returns 0x9 s.pcnt[1] ∧ returns 0xA s.segOut) ∧
    (returns 0xB (s.digSel.setWidth 8) ∧ returns 0xC (if s.run then 0x01 else 0x00)) ∧
    (faults 0xD ∧ faults 0xE ∧ faults 0xF) ∧
    (∀ idx : Nibble, (encode (.readReg idx)).toNat = 0x6000 + 0x100 * idx.toNat) ∧
    (∀ w : CmdWord, w.toNat / 4096 = 6 → w.toNat % 256 ≠ 0 →
      execWord w s = .next { s with flt := true, fcode := 1, out := faultedOutputs .reservedEncoding })

/-- LOOKUP (40_segment_lookup.md R95, R96): Rom(value) for a value of the domain, a fault with code 4 and no value
for any other, and code 1 for a word with op = 0x4 and a non-zero `a` field; no register is written. -/
def Obligations.LookupReturnsTableEntry : Prop :=
  ∀ (value : Byte) (s : State),
    (∀ v : Fin 20, value.toNat = v.val →
      exec (.lookup value) s = .next { s with out := completedOutputs s.cfg.segRom[v] }) ∧
    (0x13 < value.toNat →
      exec (.lookup value) s = .next { s with flt := true, fcode := 4, out := faultedOutputs .valueOutOfDomain }) ∧
    (s.cfg.Legal → exec (.lookup 0x13) s = .next { s with out := completedOutputs 0x80 }) ∧
    (encode (.lookup value)).toNat = 0x4000 + value.toNat ∧
    (∀ w : CmdWord, w.toNat / 4096 = 4 → w.toNat / 256 % 16 ≠ 0 →
      execWord w s = .next { s with flt := true, fcode := 1, out := faultedOutputs .reservedEncoding })

/-- 40_segment_lookup.md R97: two LOOKUPs of one value return the same, whatever cycles lie between them, resets
included. -/
def Obligations.LookupNeverChangesItsAnswer : Prop :=
  ∀ (n : Nat) (u : Nat → State) (value : Byte), Trace n u → value.toNat ≤ 0x13 →
    ∃ a b, exec (.lookup value) (u 0) = .next a ∧ exec (.lookup value) (u n) = .next b ∧
      a.out.host = .completed ∧ b.out = a.out

/-- TICK_CTL (42_tick_source.md R120): RUN takes the operand; PRESC is reloaded exactly on a 0-to-1 change; nothing
else is written; 0x5002 to 0x5FFF fault with code 1. -/
def Obligations.TickCtlWritesRun : Prop :=
  ∀ (run : Bool) (s : State),
    exec (.tickCtl run) s = .next { s with
      run := run
      presc := if s.run = false ∧ run = true then s.cfg.tickPeriod - 1 else s.presc
      out := completedOutputs 0x00 } ∧
    (encode (.tickCtl run)).toNat = 0x5000 + (if run then 1 else 0) ∧
    ∀ w : CmdWord, 0x5002 ≤ w.toNat → w.toNat ≤ 0x5FFF →
      execWord w s = .next { s with flt := true, fcode := 1, out := faultedOutputs .reservedEncoding }

/-- The corner cases (a) to (c) of 42_tick_source.md R120 in a whole cycle, and R121: an accepted TICK_CTL reloads
PRESC only on a start; otherwise the cycle's own countdown goes on. -/
def Obligations.TickCtlCycleNeverPostponesATick : Prop :=
  ∀ (s : State) (run : Bool), (currentInputs s).rst = false → (currentInputs s).cmdValid = true →
    decode (currentInputs s).cmd = .command (.tickCtl run) → s.flt = false → (s.run = true → s.presc ≠ 0) →
    ∃ t, step s = .next t ∧ t.run = run ∧ t.out = completedOutputs 0x00 ∧
      t.presc = (if s.run then s.presc - 1 else if run then s.cfg.tickPeriod - 1 else s.presc)

/-- POLL_PRESS (44_press_classifier.md R170, R171): the code by the thresholds when the history is not 0, and the
counter cleared; NONE and nothing written while it is 0; a switch id above 1 faults with code 3, a word with op = 0x3
and a non-zero `d` field with code 1. -/
def Obligations.PollPressClassifiesAndClears : Prop :=
  ∀ (sw : Nibble) (s : State),
    (∀ i : Fin 2, sw.toNat = i.val → s.hist[i] ≠ 0 →
      ∃ t, exec (.pollPress sw) s = .next t ∧
        t.pcnt[i] = 0x00 ∧ (∀ k : Fin 2, k ≠ i → t.pcnt[k] = s.pcnt[k]) ∧
        t = { s with
          pcnt := t.pcnt
          out := completedOutputs
            (if s.pcnt[i].toNat ≤ 3 then 0x00 else if s.pcnt[i].toNat ≤ 128 then 0x01 else 0x02) }) ∧
    (∀ i : Fin 2, sw.toNat = i.val → s.hist[i] = 0 →
      exec (.pollPress sw) s = .next { s with out := completedOutputs 0x00 }) ∧
    (1 < sw.toNat → exec (.pollPress sw) s =
      .next { s with flt := true, fcode := 3, out := faultedOutputs .switchIdOutOfRange }) ∧
    (encode (.pollPress sw)).toNat = 0x3000 + 0x100 * sw.toNat ∧
    (∀ w : CmdWord, w.toNat / 4096 = 3 → w.toNat % 256 ≠ 0 →
      execWord w s = .next { s with flt := true, fcode := 1, out := faultedOutputs .reservedEncoding })

/-- 20_memory.md R54: every command but POLL_PRESS, repeated at once, answers the same and leaves the state of the
first; a POLL_PRESS repeated at once returns NONE and leaves the registers of the first. -/
def Obligations.RepeatedCommandsAreIdempotent : Prop :=
  (∀ (i : Instr) (s t : State), (∀ sw, i ≠ .pollPress sw) → exec i s = .next t → exec i t = .next t) ∧
  (∀ (sw : Nibble) (s t : State), sw.toNat ≤ 1 → exec (.pollPress sw) s = .next t →
    exec (.pollPress sw) t = .next { t with out := completedOutputs 0x00 })

/-- What a command can change, register by register (the command columns of 10_state.md R37): each register only by
its own command, and the environment's inputs and the parameters by none. -/
def Obligations.CommandsWriteOnlyTheirRegisters : Prop :=
  ∀ (i : Instr) (s t : State), exec i s = .next t →
    t.cfg = s.cfg ∧ t.inputs = s.inputs ∧ t.drawn = s.drawn ∧
    t.tcnt = s.tcnt ∧ t.hist = s.hist ∧ t.segOut = s.segOut ∧ t.digSel = s.digSel ∧
    (∀ p : Fin 4, t.dbuf[p] ≠ s.dbuf[p] → ∃ pos dp value, i = .setDigit pos dp value ∧ pos.toNat = p.val) ∧
    (t.light ≠ s.light → i = .setLight t.light) ∧
    (∀ k : Fin 2, t.pcnt[k] ≠ s.pcnt[k] →
      t.pcnt[k] = 0 ∧ s.hist[k] ≠ 0 ∧ ∃ sw, i = .pollPress sw ∧ sw.toNat = k.val) ∧
    (t.run ≠ s.run → i = .tickCtl t.run) ∧
    (t.presc ≠ s.presc → i = .tickCtl true ∧ s.run = false) ∧
    (t.flt ≠ s.flt ∨ t.fcode ≠ s.fcode → i.wellFormed = false) ∧
    t.out.tick = false ∧ t.out.pins = []

/-- The causes and the check order of 60_exceptions.md R192 and R195: a command with every operand in its legal
range completes without a fault; any other faults, with the code of its first failing check, and writes only the
fault latch. -/
def Obligations.RangeChecksDecideFaults : Prop :=
  ∀ (i : Instr) (s : State),
    (i.wellFormed = true →
      ∃ t, exec i s = .next t ∧ t.out.host = .completed ∧ t.flt = s.flt ∧ t.fcode = s.fcode) ∧
    (i.wellFormed = false →
      ∃ c code, exec i s = .next { s with flt := true, fcode := code, out := faultedOutputs c } ∧
        faultCode c = code ∧ code = (match i with
          | .setDigit pos _ _ => if 3 < pos.toNat then 2 else 4
          | .pollPress _ => 3
          | .lookup _ => 4
          | _ => 1))

/-- 44_press_classifier.md R179: POLL_PRESS of one switch neither reads nor writes the other's registers.
(The spec marks R179 as its own inference.) -/
def Obligations.PollPressSwitchesIndependent : Prop :=
  ∀ (i k : Fin 2) (sw : Nibble) (s s' t t' : State), sw.toNat = i.val → i ≠ k →
    s.hist[i] = s'.hist[i] → s.pcnt[i] = s'.pcnt[i] →
    exec (.pollPress sw) s = .next t → exec (.pollPress sw) s' = .next t' →
    t.out.rsp = t'.out.rsp ∧ t.pcnt[i] = t'.pcnt[i] ∧ t.pcnt[k] = s.pcnt[k] ∧ t.hist = s.hist

/-- 44_press_classifier.md R174 over the conditions of 10_state.md R39: POLL_PRESS moves REPORT-PENDING to IDLE,
leaves IDLE and PRESSING, and returns a report only from REPORT-PENDING. -/
def Obligations.PollPressMovesReportPendingToIdle : Prop :=
  ∀ (i : Fin 2) (sw : Nibble) (s : State), sw.toNat = i.val →
    ∃ t, exec (.pollPress sw) s = .next t ∧
      pressState t i = (match pressState s i with
        | .reportPending => .idle
        | other => other) ∧
      (t.out.rsp ≠ 0x00 → pressState s i = .reportPending)

/-! ## The clock cycle -/

/-- A step runs the decoded command: in a cycle without reset and without a due tick, a presented word that decodes
to `i` is executed while FLT = 0, on the state whose inputs have moved on by one cycle and whose countdown has
gone down by one while RUN = 1 (42_tick_source.md R124). -/
def Obligations.StepRunsDecodedCommand : Prop :=
  ∀ (s : State) (i : Instr), (currentInputs s).rst = false → (s.run = true → s.presc ≠ 0) →
    (currentInputs s).cmdValid = true → s.flt = false → decode (currentInputs s).cmd = .command i →
    step s = exec i { s with
      inputs := s.inputs.tail
      drawn := if s.inputs = [] then s.drawn + 1 else s.drawn
      presc := if s.run then s.presc - 1 else s.presc }

/-- 42_tick_source.md R126: when `cmd_ready` is 1; a command is accepted exactly when it is presented and the port
is ready; a refused command has had no effect at all: the cycle ends as if nothing had been presented; and a command
that a tick makes wait is accepted in the next cycle. -/
def Obligations.CmdReadyAndAcceptance : Prop :=
  ∀ s t : State, step s = .next t →
    (t.out.cmdReady = true ↔
      (currentInputs s).rst = false ∧ s.flt = false ∧ ¬ (s.run = true ∧ s.presc = 0)) ∧
    ((currentInputs s).cmdValid = false → t.out.host = .idle) ∧
    ((currentInputs s).cmdValid = true → (t.out.host = .notAccepted ↔ t.out.cmdReady = false)) ∧
    (∀ i rest, s.inputs = i :: rest → t.out.host = .notAccepted →
      step { s with inputs := { i with cmdValid := false } :: rest } =
        .next { t with out := { t.out with host := .idle } }) ∧
    (∀ u : State, s.cfg.Legal → s.flt = false → (currentInputs s).rst = false → s.run = true → s.presc = 0 →
      (currentInputs t).rst = false → (currentInputs t).cmdValid = true → step t = .next u →
      u.out.cmdReady = true ∧ u.out.host ≠ .notAccepted ∧ u.out.host ≠ .idle)

/-- The output ports of a cycle (10_state.md R32): the latches as they stand, and `cmd_ready`, `rsp` and `tick` of the
cycle's own step, which are also what the next state records. -/
def Obligations.OutputPortsOfACycle : Prop :=
  ∀ s t : State, step s = .next t →
    portsThisCycle s = ⟨s.segOut, s.digSel, t.out.cmdReady, t.out.rsp, t.out.tick, s.flt, s.fcode⟩ ∧
    (t.out.tick = true ↔ (currentInputs s).rst = false ∧ s.run = true ∧ s.presc = 0)

/-- The return values of 30_encoding.md R75, computed from the state before the clock edge; `rsp` is 0x00 in a cycle
whose command faults or is not accepted, and in an idle cycle. -/
def Obligations.ReturnValueOfACycle : Prop :=
  ∀ s t : State, step s = .next t →
    (t.out.host = .completed → ∃ i : Instr, decode (currentInputs s).cmd = .command i ∧
      match i with
      | .lookup value => rom s.cfg value = some t.out.rsp
      | .readReg idx => ∃ r, regOf idx = some r ∧ t.out.rsp = readReg s r
      | .pollPress sw => ∃ k : Fin 2, sw.toNat = k.val ∧ t.out.rsp =
          (if s.hist[k] = 0 ∨ s.pcnt[k].toNat ≤ 3 then 0x00 else if s.pcnt[k].toNat ≤ 128 then 0x01 else 0x02)
      | _ => t.out.rsp = 0x00) ∧
    (t.out.host ≠ .completed → t.out.rsp = 0x00)

/-- TICK (43_multiplexer_debounce.md R140), every register: in a tick cycle of any state the registers take the
values of the six steps, all computed from the state before; PRESC reloads; the rest is unchanged; a presented
command is not accepted. -/
def Obligations.TickCycleResult : Prop :=
  ∀ s : State, (currentInputs s).rst = false → s.run = true → s.presc = 0 →
    ∃ t, step s = .next t ∧
      (let n := s.tcnt.toNat
       let digit : Fin 4 := ⟨n % 4, Nat.mod_lt _ (by decide)⟩
       let lit := 247 < n ∨ s.light.toNat < n
       t.tcnt.toNat = (n + 1) % 256 ∧
       (lit → t.segOut = s.dbuf[digit] ∧ t.digSel = 1#4 <<< digit.val ∧
         t.out.pins = [.deselectAllDigits, .setSegmentBits s.dbuf[digit], .selectDigit digit]) ∧
       (¬ lit → t.segOut = s.segOut ∧ t.digSel = 0b0000 ∧ t.out.pins = [.deselectAllDigits]) ∧
       (∀ i : Fin 2, t.pcnt[i] =
         (if n = 255 ∧ s.hist[i] = 0 then
            (if s.pcnt[i].toNat < s.cfg.pressSat.toNat then s.pcnt[i] + 1 else s.cfg.pressSat)
          else s.pcnt[i])) ∧
       (∀ i : Fin 2, t.hist[i].toNat =
         (2 * s.hist[i].toNat + (if (currentInputs s).swN.getLsbD i.val then 1 else 0)) % 256)) ∧
      t.presc = s.cfg.tickPeriod - 1 ∧
      t.dbuf = s.dbuf ∧ t.light = s.light ∧ t.run = s.run ∧ t.flt = s.flt ∧ t.fcode = s.fcode ∧
      t.cfg = s.cfg ∧
      t.out.tick = true ∧ t.out.cmdReady = false ∧ t.out.rsp = 0x00 ∧
      t.out.host = (if (currentInputs s).cmdValid then .notAccepted else .idle)

/-- 42_tick_source.md R129: while RUN = 0, a cycle without reset and without an accepted command changes no
register, PRESC among them; a command, too, leaves TCNT, HIST, SEG_OUT and DIG_SEL.
(The spec marks R129 as its own inference.) -/
def Obligations.StoppedCoreHoldsItsState : Prop :=
  ∀ s : State, s.run = false → (currentInputs s).rst = false →
    ∃ t, step s = .next t ∧ t.out.tick = false ∧ t.out.pins = [] ∧
      t.tcnt = s.tcnt ∧ t.hist = s.hist ∧ t.segOut = s.segOut ∧ t.digSel = s.digSel ∧
      ((currentInputs s).cmdValid = false ∨ s.flt = true → eventView t = eventView s ∧ t.presc = s.presc)

/-- Who writes what, in any cycle (60_exceptions.md R205): only a tick writes TCNT, HIST, SEG_OUT, DIG_SEL and
raises PCNT; a tick writes none of DBUF, LIGHT, RUN, FLT and FCODE. Reset apart. -/
def Obligations.AgentsWriteTheirOwnRegisters : Prop :=
  ∀ s t : State, step s = .next t → (currentInputs s).rst = false →
    (t.out.tick = false → t.tcnt = s.tcnt ∧ t.hist = s.hist ∧ t.segOut = s.segOut ∧ t.digSel = s.digSel ∧
      (∀ i : Fin 2, t.pcnt[i] = s.pcnt[i] ∨ t.pcnt[i] = 0x00) ∧ t.out.pins = []) ∧
    (t.out.tick = true → t.dbuf = s.dbuf ∧ t.light = s.light ∧ t.run = s.run ∧ t.flt = s.flt ∧
      t.fcode = s.fcode ∧
      (∀ i : Fin 2, s.pcnt[i] ≤ s.cfg.pressSat → s.pcnt[i] ≤ t.pcnt[i]))

/-- 42_tick_source.md R125: after a TICK_CTL accepted in cycle 0 that starts the source, ticks execute in exactly the
cycles P, 2P, 3P, … for as long as RUN stays 1 and there is no reset; in the cycles between, and only there, a
command can be accepted while FLT = 0. (The spec marks R125 as its own inference.) -/
def Obligations.TicksAreExactlyPeriodic : Prop :=
  ∀ (n : Nat) (u : Nat → State), Trace n u → (u 0).cfg.Legal → (u 0).run = false →
    cycleEvent (u 0) = some (.hostCmd (encode (.tickCtl true))) →
    (∀ j, 1 ≤ j → j < n → (currentInputs (u j)).rst = false ∧ (u j).run = true) →
    ∀ j < n,
      ((u (j + 1)).out.tick = true ↔ 0 < j ∧ (u 0).cfg.tickPeriod ∣ j) ∧
      ((u (j + 1)).out.cmdReady = true ↔ (u j).flt = false ∧ ¬ (0 < j ∧ (u 0).cfg.tickPeriod ∣ j))

/-- 60_exceptions.md R194, with R191 (a), (b): in a cycle whose command faults, FLT and FCODE are written at that edge,
the countdown goes on, and nothing else of the state changes: neither the word nor its operands nor the time are
recorded; and it is the first fault, since none is accepted after one. -/
def Obligations.FaultRecordsOnlyItsCause : Prop :=
  ∀ (s t : State) (c : Fault), step s = .next t → t.out.host = .faulted c →
    s.flt = false ∧ t = { s with
      inputs := s.inputs.tail
      drawn := if s.inputs = [] then s.drawn + 1 else s.drawn
      presc := if s.run then s.presc - 1 else s.presc
      flt := true
      fcode := faultCode c
      out := faultedOutputs c }

/-- 60_exceptions.md R191: from a faulted state, until a reset, no command is accepted, FLT and FCODE stay, the
host's registers stay, and ticks go on executing at their period. -/
def Obligations.FaultStopsTheHostNotTheTicks : Prop :=
  ∀ (n : Nat) (u : Nat → State), Trace n u → (u 0).cfg.Legal → (u 0).flt = true →
    (u 0).presc ≤ (u 0).cfg.tickPeriod - 1 → (∀ j < n, (currentInputs (u j)).rst = false) →
    ∀ j < n,
      (u (j + 1)).flt = true ∧ (u (j + 1)).fcode = (u 0).fcode ∧ (u (j + 1)).out.cmdReady = false ∧
      (u (j + 1)).out.rsp = 0x00 ∧
      (u (j + 1)).dbuf = (u 0).dbuf ∧ (u (j + 1)).light = (u 0).light ∧ (u (j + 1)).run = (u 0).run ∧
      ((u (j + 1)).out.tick = true ↔
        (u 0).run = true ∧ ∃ m, j = (u 0).presc + m * (u 0).cfg.tickPeriod)

/-- 70_reset_and_hazards.md R237: a host that presents only words of commands with every operand in its legal range
never stops its port: no cycle of the run faults. -/
def Obligations.WellFormedHostNeverFaults : Prop :=
  ∀ (n : Nat) (u : Nat → State), Trace n u → Safe (u 0) →
    (∀ j < n, (currentInputs (u j)).cmdValid = true →
      ∃ i : Instr, decode (currentInputs (u j)).cmd = .command i ∧ i.wellFormed = true) →
    ∀ j ≤ n, Safe (u j)

/-- 20_memory.md R62: a run of clock cycles projects onto its events; the state after it, PRESC aside, is the
event-level run of those events. (The spec marks R62 as its own inference.) -/
def Obligations.CyclesProjectOntoEvents : Prop :=
  ∀ (n : Nat) (u : Nat → State), Trace n u →
    eventView (u n) = eventView (runEvents (traceEvents n u) (u 0))

/-! ## The display -/

/-- 43_multiplexer_debounce.md R150: over a window with LIGHT constant at L the lit ticks are exactly those with
t in min(L, 247) + 1 .. 255, and there are max(8, 255 - L) of them. (The spec marks R150 as its own inference.) -/
def Obligations.DutyCycleOfAWindow : Prop :=
  ∀ (s : State) (levels : List (BitVec 2)), s.tcnt = 0 → levels.length = 256 →
    (∀ t < 256, (tickRun (levels.take (t + 1)) s).digSel ≠ 0b0000 ↔ min s.light.toNat 247 < t) ∧
    (List.range 256).countP (fun t => (tickRun (levels.take (t + 1)) s).digSel != 0b0000)
      = max 8 (255 - s.light.toNat)

/-- 43_multiplexer_debounce.md R154: the ticks of a window with constant LIGHT that drive digit d are those lit with
t mod 4 = d: for LIGHT = 0, 63 for digit 0 and 64 for each other; for LIGHT >= 247, 2 each; for every LIGHT, no two
digits differ by more than one. (The spec marks R154 as its own inference.) -/
def Obligations.ShareOfEachDigit : Prop :=
  ∀ (s : State) (levels : List (BitVec 2)), s.tcnt = 0 → levels.length = 256 →
    let driven (d : Fin 4) (t : Nat) : Prop := (tickRun (levels.take (t + 1)) s).digSel = 1#4 <<< d.val
    let share (d : Fin 4) : Nat := (List.range 256).countP fun t => decide (driven d t)
    (∀ (d : Fin 4), ∀ t < 256, driven d t ↔ t % 4 = d.val ∧ (247 < t ∨ s.light.toNat < t)) ∧
    (s.light = 0 → share 0 = 63 ∧ share 1 = 64 ∧ share 2 = 64 ∧ share 3 = 64) ∧
    (247 ≤ s.light.toNat → ∀ d, share d = 2) ∧
    (∀ d d', share d ≤ share d' + 1)

/-- 43_multiplexer_debounce.md R151: over four consecutive ticks that are all lit, the selects are the digits t, t+1,
t+2, t+3 mod 4 in this order, each with its slot's code, so each digit once; an unlit tick selects nothing and
still advances the rotation. (The spec marks R151 as its own inference.) -/
def Obligations.DigitRotation : Prop :=
  ∀ (s : State) (levels : List (BitVec 2)), levels.length = 4 →
    (∀ k : Fin 4,
      let before := tickRun (levels.take k.val) s
      let after := tickRun (levels.take (k.val + 1)) s
      let digit : Fin 4 := ⟨(s.tcnt.toNat + k.val) % 4, Nat.mod_lt _ (by decide)⟩
      before.tcnt.toNat = (s.tcnt.toNat + k.val) % 256 ∧
      (247 < before.tcnt.toNat ∨ s.light.toNat < before.tcnt.toNat →
        after.digSel = 1#4 <<< digit.val ∧ after.segOut = s.dbuf[digit]) ∧
      (¬ (247 < before.tcnt.toNat ∨ s.light.toNat < before.tcnt.toNat) → after.digSel = 0b0000)) ∧
    ((∀ k : Fin 4, (tickRun (levels.take (k.val + 1)) s).digSel ≠ 0b0000) →
      ∀ d : Fin 4, ∃ k : Fin 4, ∀ k' : Fin 4,
        (tickRun (levels.take (k'.val + 1)) s).digSel = 1#4 <<< d.val ↔ k' = k)

/-- 20_memory.md R60: SHOW4 is not atomic. After its first k commands a tick finds the new code in the slots below k
and the old code in the others. -/
def Obligations.UpdateMayBeOvertakenByATick : Prop :=
  ∀ (s : State) (v : Fin 4 → Fin 20) (k : Nat) (swN : BitVec 2), k ≤ 4 →
    let value (q : Fin 4) : BitVec 7 := BitVec.ofNat 7 (v q)
    let words := (show4 (value 0) (value 1) (value 2) (value 3)).map encode
    let t := runEvents ((words.take k).map .hostCmd) s
    let slot (q : Fin 4) : Byte := if q.val < k then s.cfg.segRom[v q] else s.dbuf[q]
    (∀ q : Fin 4, t.dbuf[q] = slot q) ∧
    (applyEvent (.tick swN) t).segOut =
      (if 247 < s.tcnt.toNat ∨ s.light.toNat < s.tcnt.toNat then
        slot ⟨s.tcnt.toNat % 4, Nat.mod_lt _ (by decide)⟩ else s.segOut)

/-! ## The switches -/

/-- Bit k of HIST[i] is the raw sample taken k ticks before the most recent one (10_state.md R24).
(The spec marks R24 as its own inference.) -/
def Obligations.HistoryBitsAreRecentSamples : Prop :=
  ∀ (s : State) (levels : List (BitVec 2)) (i : Fin 2) (k : Nat), k < 8 →
    ∀ h : k < levels.length,
      (tickRun levels s).hist[i].getLsbD k = (levels[levels.length - 1 - k]'(by omega)).getLsbD i.val

/-- 43_multiplexer_debounce.md R155: after eight ticks or more HIST[i] is 0 exactly when the last eight samples were
all 0; from a cleared history and after at most eight ticks, exactly when every sample was 0.
(The spec marks R155 as its own inference.) -/
def Obligations.HistoryIsZeroIffHeld : Prop :=
  ∀ (s : State) (levels : List (BitVec 2)) (i : Fin 2),
    (8 ≤ levels.length →
      ((tickRun levels s).hist[i] = 0 ↔ ∀ w ∈ levels.drop (levels.length - 8), w.getLsbD i.val = false)) ∧
    (levels.length ≤ 8 → s.hist[i] = 0 →
      ((tickRun levels s).hist[i] = 0 ↔ ∀ w ∈ levels, w.getLsbD i.val = false))

/-- 43_multiplexer_debounce.md R149: a boundary tick counts exactly when the eight samples before it were all 0; its
own sample does not matter. (The spec marks R149 as its own inference.) -/
def Obligations.BoundaryCountsEarlierSamples : Prop :=
  ∀ (s : State) (levels : List (BitVec 2)) (own : BitVec 2) (i : Fin 2),
    8 ≤ levels.length → (tickRun levels s).tcnt = 255 → (tickRun levels s).pcnt[i] < s.cfg.pressSat →
    ((tickRun (levels ++ [own]) s).pcnt[i] = (tickRun levels s).pcnt[i] + 1 ↔
      ∀ w ∈ levels.drop (levels.length - 8), w.getLsbD i.val = false)

/-- 43_multiplexer_debounce.md R156, first sentence: over a run without a clearing event, PCNT[i] rises from 0 to
the number of boundary ticks that found HIST[i] = 0, up to PRESS_SAT. (The spec marks R156 as its own inference.) -/
def Obligations.PressCounterCountsHeldWindows : Prop :=
  ∀ (s : State) (es : List Event) (i : Fin 2), s.cfg.Legal → s.pcnt[i] = 0 → neverClears i es s →
    (runEvents es s).pcnt[i].toNat = min s.cfg.pressSat.toNat (countedWindows i es s)

/-- 43_multiplexer_debounce.md R156, second sentence: a window-aligned run of 256 ticks with every sample 0 raises
PCNT[i] by exactly 1 unless it is already PRESS_SAT, and leaves HIST[i] = 0 and TCNT = 0.
(The spec marks R156 as its own inference.) -/
def Obligations.AlignedHeldWindowCountsOnce : Prop :=
  ∀ (s : State) (levels : List (BitVec 2)) (i : Fin 2), s.tcnt = 0 → levels.length = 256 →
    (∀ w ∈ levels, w.getLsbD i.val = false) → s.pcnt[i] ≤ s.cfg.pressSat →
    (tickRun levels s).pcnt[i].toNat = min s.cfg.pressSat.toNat (s.pcnt[i].toNat + 1) ∧
    (tickRun levels s).hist[i] = 0 ∧ (tickRun levels s).tcnt = 0

/-- 44_press_classifier.md R176: a switch whose press was counted at N boundary ticks, polled when its history is no
longer 0, is reported NONE, SHORT or LONG by N, and its counter is then 0.
(The spec marks R176 as its own inference.) -/
def Obligations.HeldForNWindowsIsClassifiedByN : Prop :=
  ∀ (s : State) (es : List Event) (i : Fin 2) (sw : Nibble), s.cfg.Legal → s.pcnt[i] = 0 →
    neverClears i es s → sw.toNat = i.val → (runEvents es s).hist[i] ≠ 0 →
    ∃ t, exec (.pollPress sw) (runEvents es s) = .next t ∧ t.pcnt[i] = 0 ∧ t.out =
      (let n := countedWindows i es s
       completedOutputs (if n ≤ 3 then 0x00 else if n ≤ 128 then 0x01 else 0x02))

/-- 44_press_classifier.md R173: a press is reported once. After a POLL_PRESS that found HIST ≠ 0, whatever events
follow, a further POLL_PRESS of the switch returns NONE as long as at most three boundary ticks have found HIST = 0
since, or HIST is 0. (The spec marks R173 as its own inference.) -/
def Obligations.PressIsReportedOnce : Prop :=
  ∀ (s t : State) (es : List Event) (i : Fin 2) (sw : Nibble), sw.toNat = i.val → s.hist[i] ≠ 0 →
    exec (.pollPress sw) s = .next t →
    countedWindows i es t ≤ 3 ∨ (runEvents es t).hist[i] = 0 →
    ∃ u, exec (.pollPress sw) (runEvents es t) = .next u ∧ u.out = completedOutputs 0x00

/-- 44_press_classifier.md R175: the ceiling PRESS_SAT is invisible to POLL_PRESS. Two cores that differ only in a
legal PRESS_SAT, given the same inputs, have the same events cycle by cycle and return the same at every
POLL_PRESS. (The spec marks R175 as its own inference.) -/
def Obligations.PressSatInvisibleToPollPress : Prop :=
  ∀ (n : Nat) (u v : Nat → State) (sat : Byte), Trace n u → Trace n v → (u 0).cfg.Legal → 129#8 ≤ sat →
    v 0 = { u 0 with cfg := { (u 0).cfg with pressSat := sat } } →
    ∀ j < n, cycleEvent (u j) = cycleEvent (v j) ∧
      ∀ w sw, cycleEvent (u j) = some (.hostCmd w) → decode w = .command (.pollPress sw) →
        (u (j + 1)).out = (v (j + 1)).out

/-- 70_reset_and_hazards.md R224: with both switches released, HIST[i] after n ticks from reset is 2^n - 1 up to the
eighth and 0xFF from then on; before the first tick POLL_PRESS returns NONE.
(The spec marks R224 as its own inference.) -/
def Obligations.FirstTicksAfterReset : Prop :=
  ∀ (i : Fin 2) (sw : Nibble) (n : Nat), sw.toNat = i.val →
    (tickRun (List.replicate n 0b11) State.reset).hist[i].toNat = min (2 ^ n - 1) 255 ∧
    exec (.pollPress sw) State.reset = .next { State.reset with out := completedOutputs 0x00 }
end

