-- ==== Sys2Proof/Laws/State.lean ====
section
/-! SUPPORT. For each shared operation of Machine/Ops.lean, and for TICK, one lemma per field of State: what the
operation writes there, or that it leaves it. No later proof unfolds a record update. -/

namespace Sys2Proof.Machine

variable (s : State)

/-! ### `complete`: An accepted command that completes writes the port record only. -/

@[simp] theorem complete_cfg (rsp : Byte) : (complete rsp s).cfg = s.cfg := rfl
@[simp] theorem complete_dbuf (rsp : Byte) : (complete rsp s).dbuf = s.dbuf := rfl
@[simp] theorem complete_light (rsp : Byte) : (complete rsp s).light = s.light := rfl
@[simp] theorem complete_tcnt (rsp : Byte) : (complete rsp s).tcnt = s.tcnt := rfl
@[simp] theorem complete_hist (rsp : Byte) : (complete rsp s).hist = s.hist := rfl
@[simp] theorem complete_pcnt (rsp : Byte) : (complete rsp s).pcnt = s.pcnt := rfl
@[simp] theorem complete_segOut (rsp : Byte) : (complete rsp s).segOut = s.segOut := rfl
@[simp] theorem complete_digSel (rsp : Byte) : (complete rsp s).digSel = s.digSel := rfl
@[simp] theorem complete_run (rsp : Byte) : (complete rsp s).run = s.run := rfl
@[simp] theorem complete_presc (rsp : Byte) : (complete rsp s).presc = s.presc := rfl
@[simp] theorem complete_flt (rsp : Byte) : (complete rsp s).flt = s.flt := rfl
@[simp] theorem complete_fcode (rsp : Byte) : (complete rsp s).fcode = s.fcode := rfl
@[simp] theorem complete_inputs (rsp : Byte) : (complete rsp s).inputs = s.inputs := rfl
@[simp] theorem complete_drawn (rsp : Byte) : (complete rsp s).drawn = s.drawn := rfl
@[simp] theorem complete_out (rsp : Byte) : (complete rsp s).out = completedOutputs rsp := rfl

/-! ### `takeFault`: A fault writes FLT, FCODE and the port record (60_exceptions.md R191). -/

@[simp] theorem takeFault_cfg (c : Fault) : (takeFault c s).cfg = s.cfg := rfl
@[simp] theorem takeFault_dbuf (c : Fault) : (takeFault c s).dbuf = s.dbuf := rfl
@[simp] theorem takeFault_light (c : Fault) : (takeFault c s).light = s.light := rfl
@[simp] theorem takeFault_tcnt (c : Fault) : (takeFault c s).tcnt = s.tcnt := rfl
@[simp] theorem takeFault_hist (c : Fault) : (takeFault c s).hist = s.hist := rfl
@[simp] theorem takeFault_pcnt (c : Fault) : (takeFault c s).pcnt = s.pcnt := rfl
@[simp] theorem takeFault_segOut (c : Fault) : (takeFault c s).segOut = s.segOut := rfl
@[simp] theorem takeFault_digSel (c : Fault) : (takeFault c s).digSel = s.digSel := rfl
@[simp] theorem takeFault_run (c : Fault) : (takeFault c s).run = s.run := rfl
@[simp] theorem takeFault_presc (c : Fault) : (takeFault c s).presc = s.presc := rfl
@[simp] theorem takeFault_flt (c : Fault) : (takeFault c s).flt = true := rfl
@[simp] theorem takeFault_fcode (c : Fault) : (takeFault c s).fcode = faultCode c := rfl
@[simp] theorem takeFault_inputs (c : Fault) : (takeFault c s).inputs = s.inputs := rfl
@[simp] theorem takeFault_drawn (c : Fault) : (takeFault c s).drawn = s.drawn := rfl
@[simp] theorem takeFault_out (c : Fault) : (takeFault c s).out = faultedOutputs c := rfl

/-! ### `setSlot`: The store of one slot. -/

@[simp] theorem setSlot_cfg (p : Fin 4) (code : Byte) : (setSlot p code s).cfg = s.cfg := rfl
@[simp] theorem setSlot_dbuf (p : Fin 4) (code : Byte) : (setSlot p code s).dbuf = s.dbuf.set p code := rfl
@[simp] theorem setSlot_light (p : Fin 4) (code : Byte) : (setSlot p code s).light = s.light := rfl
@[simp] theorem setSlot_tcnt (p : Fin 4) (code : Byte) : (setSlot p code s).tcnt = s.tcnt := rfl
@[simp] theorem setSlot_hist (p : Fin 4) (code : Byte) : (setSlot p code s).hist = s.hist := rfl
@[simp] theorem setSlot_pcnt (p : Fin 4) (code : Byte) : (setSlot p code s).pcnt = s.pcnt := rfl
@[simp] theorem setSlot_segOut (p : Fin 4) (code : Byte) : (setSlot p code s).segOut = s.segOut := rfl
@[simp] theorem setSlot_digSel (p : Fin 4) (code : Byte) : (setSlot p code s).digSel = s.digSel := rfl
@[simp] theorem setSlot_run (p : Fin 4) (code : Byte) : (setSlot p code s).run = s.run := rfl
@[simp] theorem setSlot_presc (p : Fin 4) (code : Byte) : (setSlot p code s).presc = s.presc := rfl
@[simp] theorem setSlot_flt (p : Fin 4) (code : Byte) : (setSlot p code s).flt = s.flt := rfl
@[simp] theorem setSlot_fcode (p : Fin 4) (code : Byte) : (setSlot p code s).fcode = s.fcode := rfl
@[simp] theorem setSlot_inputs (p : Fin 4) (code : Byte) : (setSlot p code s).inputs = s.inputs := rfl
@[simp] theorem setSlot_drawn (p : Fin 4) (code : Byte) : (setSlot p code s).drawn = s.drawn := rfl
@[simp] theorem setSlot_out (p : Fin 4) (code : Byte) : (setSlot p code s).out = s.out := rfl

/-! ### `setLight`: The store into LIGHT. -/

@[simp] theorem setLight_cfg (light : Byte) : (setLight light s).cfg = s.cfg := rfl
@[simp] theorem setLight_dbuf (light : Byte) : (setLight light s).dbuf = s.dbuf := rfl
@[simp] theorem setLight_light (light : Byte) : (setLight light s).light = light := rfl
@[simp] theorem setLight_tcnt (light : Byte) : (setLight light s).tcnt = s.tcnt := rfl
@[simp] theorem setLight_hist (light : Byte) : (setLight light s).hist = s.hist := rfl
@[simp] theorem setLight_pcnt (light : Byte) : (setLight light s).pcnt = s.pcnt := rfl
@[simp] theorem setLight_segOut (light : Byte) : (setLight light s).segOut = s.segOut := rfl
@[simp] theorem setLight_digSel (light : Byte) : (setLight light s).digSel = s.digSel := rfl
@[simp] theorem setLight_run (light : Byte) : (setLight light s).run = s.run := rfl
@[simp] theorem setLight_presc (light : Byte) : (setLight light s).presc = s.presc := rfl
@[simp] theorem setLight_flt (light : Byte) : (setLight light s).flt = s.flt := rfl
@[simp] theorem setLight_fcode (light : Byte) : (setLight light s).fcode = s.fcode := rfl
@[simp] theorem setLight_inputs (light : Byte) : (setLight light s).inputs = s.inputs := rfl
@[simp] theorem setLight_drawn (light : Byte) : (setLight light s).drawn = s.drawn := rfl
@[simp] theorem setLight_out (light : Byte) : (setLight light s).out = s.out := rfl

/-! ### `clearPress`: The clear of one press counter. -/

@[simp] theorem clearPress_cfg (i : Fin 2) : (clearPress i s).cfg = s.cfg := rfl
@[simp] theorem clearPress_dbuf (i : Fin 2) : (clearPress i s).dbuf = s.dbuf := rfl
@[simp] theorem clearPress_light (i : Fin 2) : (clearPress i s).light = s.light := rfl
@[simp] theorem clearPress_tcnt (i : Fin 2) : (clearPress i s).tcnt = s.tcnt := rfl
@[simp] theorem clearPress_hist (i : Fin 2) : (clearPress i s).hist = s.hist := rfl
@[simp] theorem clearPress_pcnt (i : Fin 2) : (clearPress i s).pcnt = s.pcnt.set i 0x00 := rfl
@[simp] theorem clearPress_segOut (i : Fin 2) : (clearPress i s).segOut = s.segOut := rfl
@[simp] theorem clearPress_digSel (i : Fin 2) : (clearPress i s).digSel = s.digSel := rfl
@[simp] theorem clearPress_run (i : Fin 2) : (clearPress i s).run = s.run := rfl
@[simp] theorem clearPress_presc (i : Fin 2) : (clearPress i s).presc = s.presc := rfl
@[simp] theorem clearPress_flt (i : Fin 2) : (clearPress i s).flt = s.flt := rfl
@[simp] theorem clearPress_fcode (i : Fin 2) : (clearPress i s).fcode = s.fcode := rfl
@[simp] theorem clearPress_inputs (i : Fin 2) : (clearPress i s).inputs = s.inputs := rfl
@[simp] theorem clearPress_drawn (i : Fin 2) : (clearPress i s).drawn = s.drawn := rfl
@[simp] theorem clearPress_out (i : Fin 2) : (clearPress i s).out = s.out := rfl

/-! ### `reloadCountdown`: The reload of PRESC. -/

@[simp] theorem reloadCountdown_cfg : (reloadCountdown s).cfg = s.cfg := rfl
@[simp] theorem reloadCountdown_dbuf : (reloadCountdown s).dbuf = s.dbuf := rfl
@[simp] theorem reloadCountdown_light : (reloadCountdown s).light = s.light := rfl
@[simp] theorem reloadCountdown_tcnt : (reloadCountdown s).tcnt = s.tcnt := rfl
@[simp] theorem reloadCountdown_hist : (reloadCountdown s).hist = s.hist := rfl
@[simp] theorem reloadCountdown_pcnt : (reloadCountdown s).pcnt = s.pcnt := rfl
@[simp] theorem reloadCountdown_segOut : (reloadCountdown s).segOut = s.segOut := rfl
@[simp] theorem reloadCountdown_digSel : (reloadCountdown s).digSel = s.digSel := rfl
@[simp] theorem reloadCountdown_run : (reloadCountdown s).run = s.run := rfl
@[simp] theorem reloadCountdown_presc : (reloadCountdown s).presc = s.cfg.tickPeriod - 1 := rfl
@[simp] theorem reloadCountdown_flt : (reloadCountdown s).flt = s.flt := rfl
@[simp] theorem reloadCountdown_fcode : (reloadCountdown s).fcode = s.fcode := rfl
@[simp] theorem reloadCountdown_inputs : (reloadCountdown s).inputs = s.inputs := rfl
@[simp] theorem reloadCountdown_drawn : (reloadCountdown s).drawn = s.drawn := rfl
@[simp] theorem reloadCountdown_out : (reloadCountdown s).out = s.out := rfl

/-! ### `setRun`: The write of RUN with the reload on a start. -/

@[simp] theorem setRun_cfg (run : Bool) : (setRun run s).cfg = s.cfg := by unfold setRun; split <;> rfl
@[simp] theorem setRun_dbuf (run : Bool) : (setRun run s).dbuf = s.dbuf := by unfold setRun; split <;> rfl
@[simp] theorem setRun_light (run : Bool) : (setRun run s).light = s.light := by unfold setRun; split <;> rfl
@[simp] theorem setRun_tcnt (run : Bool) : (setRun run s).tcnt = s.tcnt := by unfold setRun; split <;> rfl
@[simp] theorem setRun_hist (run : Bool) : (setRun run s).hist = s.hist := by unfold setRun; split <;> rfl
@[simp] theorem setRun_pcnt (run : Bool) : (setRun run s).pcnt = s.pcnt := by unfold setRun; split <;> rfl
@[simp] theorem setRun_segOut (run : Bool) : (setRun run s).segOut = s.segOut := by unfold setRun; split <;> rfl
@[simp] theorem setRun_digSel (run : Bool) : (setRun run s).digSel = s.digSel := by unfold setRun; split <;> rfl
@[simp] theorem setRun_run (run : Bool) : (setRun run s).run = run := by unfold setRun; split <;> rfl
@[simp] theorem setRun_presc (run : Bool) : (setRun run s).presc = if !s.run && run then s.cfg.tickPeriod - 1 else s.presc := by unfold setRun; split <;> rfl
@[simp] theorem setRun_flt (run : Bool) : (setRun run s).flt = s.flt := by unfold setRun; split <;> rfl
@[simp] theorem setRun_fcode (run : Bool) : (setRun run s).fcode = s.fcode := by unfold setRun; split <;> rfl
@[simp] theorem setRun_inputs (run : Bool) : (setRun run s).inputs = s.inputs := by unfold setRun; split <;> rfl
@[simp] theorem setRun_drawn (run : Bool) : (setRun run s).drawn = s.drawn := by unfold setRun; split <;> rfl
@[simp] theorem setRun_out (run : Bool) : (setRun run s).out = s.out := by unfold setRun; split <;> rfl

/-! ### `countdown`: The countdown of one cycle. -/

@[simp] theorem countdown_cfg : (countdown s).cfg = s.cfg := by unfold countdown; split <;> rfl
@[simp] theorem countdown_dbuf : (countdown s).dbuf = s.dbuf := by unfold countdown; split <;> rfl
@[simp] theorem countdown_light : (countdown s).light = s.light := by unfold countdown; split <;> rfl
@[simp] theorem countdown_tcnt : (countdown s).tcnt = s.tcnt := by unfold countdown; split <;> rfl
@[simp] theorem countdown_hist : (countdown s).hist = s.hist := by unfold countdown; split <;> rfl
@[simp] theorem countdown_pcnt : (countdown s).pcnt = s.pcnt := by unfold countdown; split <;> rfl
@[simp] theorem countdown_segOut : (countdown s).segOut = s.segOut := by unfold countdown; split <;> rfl
@[simp] theorem countdown_digSel : (countdown s).digSel = s.digSel := by unfold countdown; split <;> rfl
@[simp] theorem countdown_run : (countdown s).run = s.run := by unfold countdown; split <;> rfl
@[simp] theorem countdown_presc : (countdown s).presc = if s.run then s.presc - 1 else s.presc := by unfold countdown; split <;> rfl
@[simp] theorem countdown_flt : (countdown s).flt = s.flt := by unfold countdown; split <;> rfl
@[simp] theorem countdown_fcode : (countdown s).fcode = s.fcode := by unfold countdown; split <;> rfl
@[simp] theorem countdown_inputs : (countdown s).inputs = s.inputs := by unfold countdown; split <;> rfl
@[simp] theorem countdown_drawn : (countdown s).drawn = s.drawn := by unfold countdown; split <;> rfl
@[simp] theorem countdown_out : (countdown s).out = s.out := by unfold countdown; split <;> rfl

/-! ### `quietCycle`: A cycle without an operation. -/

@[simp] theorem quietCycle_cfg : (quietCycle s).cfg = s.cfg := rfl
@[simp] theorem quietCycle_dbuf : (quietCycle s).dbuf = s.dbuf := rfl
@[simp] theorem quietCycle_light : (quietCycle s).light = s.light := rfl
@[simp] theorem quietCycle_tcnt : (quietCycle s).tcnt = s.tcnt := rfl
@[simp] theorem quietCycle_hist : (quietCycle s).hist = s.hist := rfl
@[simp] theorem quietCycle_pcnt : (quietCycle s).pcnt = s.pcnt := rfl
@[simp] theorem quietCycle_segOut : (quietCycle s).segOut = s.segOut := rfl
@[simp] theorem quietCycle_digSel : (quietCycle s).digSel = s.digSel := rfl
@[simp] theorem quietCycle_run : (quietCycle s).run = s.run := rfl
@[simp] theorem quietCycle_presc : (quietCycle s).presc = s.presc := rfl
@[simp] theorem quietCycle_flt : (quietCycle s).flt = s.flt := rfl
@[simp] theorem quietCycle_fcode : (quietCycle s).fcode = s.fcode := rfl
@[simp] theorem quietCycle_inputs : (quietCycle s).inputs = s.inputs := rfl
@[simp] theorem quietCycle_drawn : (quietCycle s).drawn = s.drawn := rfl
@[simp] theorem quietCycle_out : (quietCycle s).out = CycleOutputs.quiet (!s.flt) := rfl

/-! ### `passInputs`: The clock moves on by one cycle of inputs. -/

@[simp] theorem passInputs_cfg : (passInputs s).cfg = s.cfg := by rcases s with ⟨_, _, _, _, _, _, _, _, _, _, _, _, _ | ⟨_, _⟩, _, _⟩ <;> rfl
@[simp] theorem passInputs_dbuf : (passInputs s).dbuf = s.dbuf := by rcases s with ⟨_, _, _, _, _, _, _, _, _, _, _, _, _ | ⟨_, _⟩, _, _⟩ <;> rfl
@[simp] theorem passInputs_light : (passInputs s).light = s.light := by rcases s with ⟨_, _, _, _, _, _, _, _, _, _, _, _, _ | ⟨_, _⟩, _, _⟩ <;> rfl
@[simp] theorem passInputs_tcnt : (passInputs s).tcnt = s.tcnt := by rcases s with ⟨_, _, _, _, _, _, _, _, _, _, _, _, _ | ⟨_, _⟩, _, _⟩ <;> rfl
@[simp] theorem passInputs_hist : (passInputs s).hist = s.hist := by rcases s with ⟨_, _, _, _, _, _, _, _, _, _, _, _, _ | ⟨_, _⟩, _, _⟩ <;> rfl
@[simp] theorem passInputs_pcnt : (passInputs s).pcnt = s.pcnt := by rcases s with ⟨_, _, _, _, _, _, _, _, _, _, _, _, _ | ⟨_, _⟩, _, _⟩ <;> rfl
@[simp] theorem passInputs_segOut : (passInputs s).segOut = s.segOut := by rcases s with ⟨_, _, _, _, _, _, _, _, _, _, _, _, _ | ⟨_, _⟩, _, _⟩ <;> rfl
@[simp] theorem passInputs_digSel : (passInputs s).digSel = s.digSel := by rcases s with ⟨_, _, _, _, _, _, _, _, _, _, _, _, _ | ⟨_, _⟩, _, _⟩ <;> rfl
@[simp] theorem passInputs_run : (passInputs s).run = s.run := by rcases s with ⟨_, _, _, _, _, _, _, _, _, _, _, _, _ | ⟨_, _⟩, _, _⟩ <;> rfl
@[simp] theorem passInputs_presc : (passInputs s).presc = s.presc := by rcases s with ⟨_, _, _, _, _, _, _, _, _, _, _, _, _ | ⟨_, _⟩, _, _⟩ <;> rfl
@[simp] theorem passInputs_flt : (passInputs s).flt = s.flt := by rcases s with ⟨_, _, _, _, _, _, _, _, _, _, _, _, _ | ⟨_, _⟩, _, _⟩ <;> rfl
@[simp] theorem passInputs_fcode : (passInputs s).fcode = s.fcode := by rcases s with ⟨_, _, _, _, _, _, _, _, _, _, _, _, _ | ⟨_, _⟩, _, _⟩ <;> rfl
@[simp] theorem passInputs_inputs : (passInputs s).inputs = s.inputs.tail := by rcases s with ⟨_, _, _, _, _, _, _, _, _, _, _, _, _ | ⟨_, _⟩, _, _⟩ <;> rfl
@[simp] theorem passInputs_drawn : (passInputs s).drawn = if s.inputs = [] then s.drawn + 1 else s.drawn := by rcases s with ⟨_, _, _, _, _, _, _, _, _, _, _, _, _ | ⟨_, _⟩, _, _⟩ <;> rfl
@[simp] theorem passInputs_out : (passInputs s).out = s.out := by rcases s with ⟨_, _, _, _, _, _, _, _, _, _, _, _, _ | ⟨_, _⟩, _, _⟩ <;> rfl

/-! ### `markRefused`: The record of a command that was not accepted. -/

@[simp] theorem markRefused_cfg (b : Bool) : (markRefused b s).cfg = s.cfg := rfl
@[simp] theorem markRefused_dbuf (b : Bool) : (markRefused b s).dbuf = s.dbuf := rfl
@[simp] theorem markRefused_light (b : Bool) : (markRefused b s).light = s.light := rfl
@[simp] theorem markRefused_tcnt (b : Bool) : (markRefused b s).tcnt = s.tcnt := rfl
@[simp] theorem markRefused_hist (b : Bool) : (markRefused b s).hist = s.hist := rfl
@[simp] theorem markRefused_pcnt (b : Bool) : (markRefused b s).pcnt = s.pcnt := rfl
@[simp] theorem markRefused_segOut (b : Bool) : (markRefused b s).segOut = s.segOut := rfl
@[simp] theorem markRefused_digSel (b : Bool) : (markRefused b s).digSel = s.digSel := rfl
@[simp] theorem markRefused_run (b : Bool) : (markRefused b s).run = s.run := rfl
@[simp] theorem markRefused_presc (b : Bool) : (markRefused b s).presc = s.presc := rfl
@[simp] theorem markRefused_flt (b : Bool) : (markRefused b s).flt = s.flt := rfl
@[simp] theorem markRefused_fcode (b : Bool) : (markRefused b s).fcode = s.fcode := rfl
@[simp] theorem markRefused_inputs (b : Bool) : (markRefused b s).inputs = s.inputs := rfl
@[simp] theorem markRefused_drawn (b : Bool) : (markRefused b s).drawn = s.drawn := rfl

/-! ### `applyReset`: Reset (10_state.md R38). -/

@[simp] theorem applyReset_cfg : (applyReset s).cfg = s.cfg := rfl
@[simp] theorem applyReset_dbuf : (applyReset s).dbuf = #v[0x00, 0x00, 0x00, 0x00] := rfl
@[simp] theorem applyReset_light : (applyReset s).light = 0x00 := rfl
@[simp] theorem applyReset_tcnt : (applyReset s).tcnt = 0x00 := rfl
@[simp] theorem applyReset_hist : (applyReset s).hist = #v[0x00, 0x00] := rfl
@[simp] theorem applyReset_pcnt : (applyReset s).pcnt = #v[0x00, 0x00] := rfl
@[simp] theorem applyReset_segOut : (applyReset s).segOut = 0x00 := rfl
@[simp] theorem applyReset_digSel : (applyReset s).digSel = 0b0000 := rfl
@[simp] theorem applyReset_run : (applyReset s).run = false := rfl
@[simp] theorem applyReset_presc : (applyReset s).presc = s.cfg.tickPeriod - 1 := rfl
@[simp] theorem applyReset_flt : (applyReset s).flt = false := rfl
@[simp] theorem applyReset_fcode : (applyReset s).fcode = 0b000 := rfl
@[simp] theorem applyReset_inputs : (applyReset s).inputs = s.inputs := rfl
@[simp] theorem applyReset_drawn : (applyReset s).drawn = s.drawn := rfl
@[simp] theorem applyReset_out : (applyReset s).out = CycleOutputs.quiet false := rfl

/-! ### `tick`: TICK writes the display latches, TCNT, HIST, PCNT and the port record (43_multiplexer_debounce.md R140). -/

@[simp] theorem tick_cfg (w : BitVec 2) : (tick w s).cfg = s.cfg := rfl
@[simp] theorem tick_dbuf (w : BitVec 2) : (tick w s).dbuf = s.dbuf := rfl
@[simp] theorem tick_light (w : BitVec 2) : (tick w s).light = s.light := rfl
@[simp] theorem tick_tcnt (w : BitVec 2) : (tick w s).tcnt = nextTick s.tcnt := rfl
@[simp] theorem tick_hist (w : BitVec 2) : (tick w s).hist = #v[shiftIn s.hist[0] (sampleSwitch w 0), shiftIn s.hist[1] (sampleSwitch w 1)] := rfl
@[simp] theorem tick_pcnt (w : BitVec 2) : (tick w s).pcnt = #v[accumulate s 0, accumulate s 1] := rfl
@[simp] theorem tick_segOut (w : BitVec 2) : (tick w s).segOut = if lit s.tcnt s.light then s.dbuf[digitOf s.tcnt] else s.segOut := rfl
@[simp] theorem tick_digSel (w : BitVec 2) : (tick w s).digSel = if lit s.tcnt s.light then oneHot (digitOf s.tcnt) else 0b0000 := rfl
@[simp] theorem tick_run (w : BitVec 2) : (tick w s).run = s.run := rfl
@[simp] theorem tick_presc (w : BitVec 2) : (tick w s).presc = s.presc := rfl
@[simp] theorem tick_flt (w : BitVec 2) : (tick w s).flt = s.flt := rfl
@[simp] theorem tick_fcode (w : BitVec 2) : (tick w s).fcode = s.fcode := rfl
@[simp] theorem tick_inputs (w : BitVec 2) : (tick w s).inputs = s.inputs := rfl
@[simp] theorem tick_drawn (w : BitVec 2) : (tick w s).drawn = s.drawn := rfl

/-! ### The fields of the port record that the two remaining operations touch -/

@[simp] theorem markRefused_out_host (b : Bool) :
    (markRefused b s).out.host = if b then .notAccepted else .idle := rfl
@[simp] theorem markRefused_out_cmdReady (b : Bool) : (markRefused b s).out.cmdReady = s.out.cmdReady := rfl
@[simp] theorem markRefused_out_rsp (b : Bool) : (markRefused b s).out.rsp = s.out.rsp := rfl
@[simp] theorem markRefused_out_tick (b : Bool) : (markRefused b s).out.tick = s.out.tick := rfl
@[simp] theorem markRefused_out_pins (b : Bool) : (markRefused b s).out.pins = s.out.pins := rfl
@[simp] theorem tick_out_cmdReady (w : BitVec 2) : (tick w s).out.cmdReady = false := rfl
@[simp] theorem tick_out_rsp (w : BitVec 2) : (tick w s).out.rsp = 0 := rfl
@[simp] theorem tick_out_tick (w : BitVec 2) : (tick w s).out.tick = true := rfl
@[simp] theorem tick_out_host (w : BitVec 2) : (tick w s).out.host = .idle := rfl
@[simp] theorem tick_out_pins (w : BitVec 2) : (tick w s).out.pins = tickPins s := rfl

end Sys2Proof.Machine
end

