-- ==== Sys2Proof/Laws/Flags.lean ====
section
/-! SUPPORT. The conditions and the arithmetic of Machine/Flags.lean as facts about natural numbers and bits. -/

namespace Sys2Proof.Machine

theorem lit_iff (t light : Byte) : lit t light = true ↔ 247 < t.toNat ∨ light.toNat < t.toNat := by
  simp [lit, dimFloor, BitVec.lt_def]

theorem nextTick_toNat (t : Byte) : (nextTick t).toNat = (t.toNat + 1) % 256 := by
  simp [nextTick, BitVec.toNat_add]

theorem boundary_iff (t : Byte) : boundary t = true ↔ t.toNat = 255 := by
  have := t.isLt
  simp only [boundary, beq_iff_eq, ← BitVec.toNat_inj, nextTick_toNat]
  simp
  omega

theorem boundary_iff_eq (t : Byte) : boundary t = true ↔ t = 255 := by
  rw [boundary_iff, ← BitVec.toNat_inj]; rfl

theorem oneHot_ne_zero (d : Fin 4) : oneHot d ≠ 0 := by revert d; decide

theorem oneHot_inj {d e : Fin 4} (h : oneHot d = oneHot e) : d = e := by revert d e; decide

theorem satInc_of_lt {sat c : Byte} (h : c < sat) : (satInc sat c).toNat = c.toNat + 1 := by
  have h1 : c.toNat < sat.toNat := h
  have := sat.isLt
  simp [satInc, h, BitVec.toNat_add]
  omega

theorem satInc_of_ge {sat c : Byte} (h : ¬ c < sat) : satInc sat c = sat := by simp [satInc, h]

/-- The saturating increment never passes its ceiling (00_scope.md R10 item 3). -/
theorem satInc_le (sat c : Byte) : satInc sat c ≤ sat := by
  by_cases h : c < sat
  · have h1 : c.toNat < sat.toNat := h
    rw [BitVec.le_def, satInc_of_lt h]; omega
  · rw [satInc_of_ge h]; exact BitVec.le_refl _

/-- It rises by at most one. -/
theorem satInc_toNat_le (sat c : Byte) : (satInc sat c).toNat ≤ c.toNat + 1 := by
  by_cases h : c < sat
  · exact (satInc_of_lt h).le
  · have h1 : ¬ c.toNat < sat.toNat := h
    rw [satInc_of_ge h]; omega

/-- Counting under the ceiling: `min` of the exact count. -/
theorem satInc_min {sat c : Byte} {n : Nat} (h : c.toNat = min sat.toNat n) :
    (satInc sat c).toNat = min sat.toNat (n + 1) := by
  by_cases hc : c < sat
  · have h1 : c.toNat < sat.toNat := hc
    rw [satInc_of_lt hc]; omega
  · have h1 : ¬ c.toNat < sat.toNat := hc
    rw [satInc_of_ge hc]; omega

theorem shiftIn_toNat (h : Byte) (level : Bool) :
    (shiftIn h level).toNat = (2 * h.toNat + (if level then 1 else 0)) % 256 := by
  revert h level; decide

@[simp] theorem shiftIn_getLsbD_zero (h : Byte) (level : Bool) : (shiftIn h level).getLsbD 0 = level := by
  revert h level; decide

@[simp] theorem shiftIn_getLsbD_succ (h : Byte) (level : Bool) {k : Nat} (hk : k + 1 < 8) :
    (shiftIn h level).getLsbD (k + 1) = h.getLsbD k := by
  have : ∀ k : Fin 7, ∀ (h : Byte) (level : Bool), (shiftIn h level).getLsbD (k.val + 1) = h.getLsbD k.val := by
    decide
  exact this ⟨k, by omega⟩ h level

/-- The thresholds of 44_press_classifier.md R171 as a table over the count. -/
theorem classify_code (c : Byte) :
    (classify c).code = if c.toNat ≤ 3 then 0x00 else if c.toNat ≤ 128 then 0x01 else 0x02 := by
  revert c; decide

theorem classify_of_long {c : Byte} (h : 128 < c.toNat) : classify c = .long := by
  have : longThr < c := h
  simp [classify, this]

end Sys2Proof.Machine
end

