-- ==== Sys2Proof/Laws/Operands.lean ====
section
/-! SUPPORT. What each operand form answers (Machine/Operands.lean): when it names a register or a table entry, and
which. -/

namespace Sys2Proof.Machine

theorem slotOf_eq_some {pos : Nibble} {p : Fin 4} : slotOf pos = some p ↔ pos.toNat = p.val := by
  unfold slotOf
  split <;> simp [Fin.ext_iff]
  omega

theorem slotOf_eq_none {pos : Nibble} : slotOf pos = none ↔ 3 < pos.toNat := by
  unfold slotOf
  split <;> simp <;> omega

theorem switchOf_eq_some {sw : Nibble} {i : Fin 2} : switchOf sw = some i ↔ sw.toNat = i.val := by
  unfold switchOf
  split <;> simp [Fin.ext_iff]
  omega

theorem switchOf_eq_none {sw : Nibble} : switchOf sw = none ↔ 1 < sw.toNat := by
  unfold switchOf
  split <;> simp <;> omega

theorem rom_of_eq (c : Params) {value : Byte} {v : Fin 20} (h : value.toNat = v.val) :
    rom c value = some c.segRom[v] := by
  simp [rom, h]

theorem rom_eq_none {c : Params} {value : Byte} : rom c value = none ↔ 0x13 < value.toNat := by
  unfold rom
  split <;> simp <;> omega

theorem rom_eq_some {c : Params} {value code : Byte} (h : rom c value = some code) :
    ∃ v : Fin 20, value.toNat = v.val ∧ code = c.segRom[v] := by
  unfold rom at h
  split at h
  · exact ⟨⟨value.toNat, ‹_›⟩, rfl, by simpa using h.symm⟩
  · cases h

theorem regOf_eq_none {idx : Nibble} : regOf idx = none ↔ 0xC < idx.toNat := by
  revert idx; decide

/-- The operand range checks of the commands are the legal ranges of WellFormed. -/
theorem regOf_isSome (idx : Nibble) : (regOf idx).isSome = idxLegal idx := by
  revert idx; decide

/-- Two states that agree on an indexed register's field read the same there: SET_DIGIT, through its slot. -/
theorem readReg_setSlot_of_ne (p : Fin 4) (code : Byte) (s : State) {r : Reg} (h : r ≠ .dbuf p) :
    readReg (setSlot p code s) r = readReg s r := by
  cases r with
  | dbuf q =>
    have hq : p.val ≠ q.val := fun e => h (by rw [Fin.ext e])
    simp [readReg, hq]
  | _ => rfl

@[simp] theorem readReg_complete (rsp : Byte) (s : State) (r : Reg) :
    readReg (complete rsp s) r = readReg s r := by cases r <;> rfl

@[simp] theorem readReg_takeFault (c : Fault) (s : State) (r : Reg) :
    readReg (takeFault c s) r = readReg s r := by cases r <;> rfl

@[simp] theorem readReg_countdown (s : State) (r : Reg) : readReg (countdown s) r = readReg s r := by
  cases r <;> simp [readReg]

end Sys2Proof.Machine
end

