-- ==== Sys2Proof/Laws/Exec.lean ====
section
/-! SUPPORT. What an accepted command can do, said once: which register operation it performs before it completes,
or that it enters a fault. The frames of the commands follow from this lemma. -/

namespace Sys2Proof.Machine

/-- What a completing command does: its register operation (none, or the one write of its kind) and the value it
returns. -/
inductive Writes (s : State) : Instr → State → Byte → Prop where
  | nop : Writes s .nop s 0x00
  | setDigit {pos dp value} (p : Fin 4) (v : Fin 20) (hp : pos.toNat = p.val) (hv : value.toNat = v.val) :
      Writes s (.setDigit pos dp value) (setSlot p (s.cfg.segRom[v] ||| dpMask dp) s) 0x00
  | setLight (light) : Writes s (.setLight light) (setLight light s) 0x00
  | pollReleased {sw} (i : Fin 2) (hi : sw.toNat = i.val) (hh : s.hist[i] ≠ 0) :
      Writes s (.pollPress sw) (clearPress i s) (classify s.pcnt[i]).code
  | pollHeld {sw} (i : Fin 2) (hi : sw.toNat = i.val) (hh : s.hist[i] = 0) : Writes s (.pollPress sw) s 0x00
  | lookup {value} (v : Fin 20) (hv : value.toNat = v.val) : Writes s (.lookup value) s s.cfg.segRom[v]
  | tickCtl (run) : Writes s (.tickCtl run) (setRun run s) 0x00
  | readReg {idx} (r : Reg) (hr : regOf idx = some r) : Writes s (.readReg idx) s (readReg s r)

/-- The first failing check of a command that is not well formed (60_exceptions.md R195). -/
def failingCheck : Instr → Fault
  | .setDigit pos _ _ => if 3 < pos.toNat then .positionOutOfRange else .valueOutOfDomain
  | .pollPress _ => .switchIdOutOfRange
  | .lookup _ => .valueOutOfDomain
  | _ => .reservedEncoding

/-- Every accepted command answers a next state, in one of two ways: it completes after its register operation, or
it faults and nothing but the fault latch is written (00_scope.md R11, 60_exceptions.md R196). -/
theorem exec_cases (i : Instr) (s : State) :
    (i.wellFormed = true ∧ ∃ s' rsp, Writes s i s' rsp ∧ exec i s = .next (complete rsp s')) ∨
    (i.wellFormed = false ∧ exec i s = .next (takeFault (failingCheck i) s)) := by
  cases i with
  | nop => exact .inl ⟨rfl, _, _, .nop, rfl⟩
  | setDigit pos dp value =>
    simp only [Instr.wellFormed, posLegal, valueLegal, exec, execSetDigit, failingCheck]
    cases hp : slotOf pos with
    | none =>
      have h3 := slotOf_eq_none.1 hp
      exact .inr ⟨by simp; omega, by rw [if_pos h3]⟩
    | some p =>
      have hp' := slotOf_eq_some.1 hp
      have hlt := p.isLt
      have h8 : (value.setWidth 8).toNat = value.toNat := by
        have := value.isLt
        simp; omega
      cases hr : rom s.cfg (value.setWidth 8) with
      | none =>
        have := rom_eq_none.1 hr
        exact .inr ⟨by simp; omega, by rw [if_neg (by omega)]⟩
      | some code =>
        obtain ⟨v, hv, rfl⟩ := rom_eq_some hr
        refine .inl ⟨?_, _, _, .setDigit p v hp' (by omega), rfl⟩
        have := v.isLt
        simp; omega
  | setLight light => exact .inl ⟨rfl, _, _, .setLight light, rfl⟩
  | pollPress sw =>
    simp only [Instr.wellFormed, swLegal, exec, execPollPress]
    cases hi : switchOf sw with
    | none =>
      have := switchOf_eq_none.1 hi
      exact .inr ⟨by simp; omega, rfl⟩
    | some i =>
      have hi' := switchOf_eq_some.1 hi
      have := i.isLt
      by_cases hh : s.hist[i] = 0
      · exact .inl ⟨by simp; omega, s, 0x00, .pollHeld i hi' hh, if_neg (not_not.2 hh)⟩
      · exact .inl ⟨by simp; omega, _, _, .pollReleased i hi' hh, if_pos hh⟩
  | lookup value =>
    simp only [Instr.wellFormed, valueLegal, exec, execLookup]
    cases hr : rom s.cfg value with
    | none =>
      have := rom_eq_none.1 hr
      exact .inr ⟨by simp; omega, rfl⟩
    | some code =>
      obtain ⟨v, hv, rfl⟩ := rom_eq_some hr
      have := v.isLt
      exact .inl ⟨by simp; omega, _, _, .lookup v hv, rfl⟩
  | tickCtl run => exact .inl ⟨rfl, _, _, .tickCtl run, rfl⟩
  | readReg idx =>
    have hw := regOf_isSome idx
    simp only [Instr.wellFormed, exec, execReadReg]
    cases hr : regOf idx with
    | none => exact .inr ⟨by simpa [hr] using hw.symm, rfl⟩
    | some r => exact .inl ⟨by simpa [hr] using hw.symm, _, _, .readReg r hr, rfl⟩

/-- What no command touches, whatever its register operation. -/
theorem Writes.frame {s s' : State} {i : Instr} {rsp : Byte} (h : Writes s i s' rsp) :
    s'.cfg = s.cfg ∧ s'.tcnt = s.tcnt ∧ s'.hist = s.hist ∧ s'.segOut = s.segOut ∧ s'.digSel = s.digSel ∧
    s'.flt = s.flt ∧ s'.fcode = s.fcode ∧ s'.inputs = s.inputs ∧ s'.drawn = s.drawn := by
  cases h <;> simp

/-- An accepted word: its command's two ways, or the fault of a reserved encoding. -/
theorem execWord_cases (w : CmdWord) (s : State) :
    (∃ i s' rsp, decode w = .command i ∧ i.wellFormed = true ∧ Writes s i s' rsp ∧
      execWord w s = .next (complete rsp s')) ∨
    (∃ c, execWord w s = .next (takeFault c s) ∧
      ∀ i, decode w = .command i → i.wellFormed = false) := by
  unfold execWord
  cases hd : decode w with
  | command i =>
    rcases exec_cases i s with ⟨hw, s', rsp, hs, he⟩ | ⟨hw, he⟩
    · exact .inl ⟨i, s', rsp, rfl, hw, hs, he⟩
    · exact .inr ⟨_, he, fun j hj => by cases hj; exact hw⟩
  | reserved r => exact .inr ⟨_, rfl, fun j hj => by cases hj⟩

end Sys2Proof.Machine
end

