-- ==== Sys2Proof/Laws/Cycle.lean ====
section
/-! SUPPORT. What one clock cycle can do, said once (42_tick_source.md R124), and what an event can do. -/

namespace Sys2Proof.Machine

@[simp] theorem tickDue_iff (s : State) : tickDue s = true ↔ s.run = true ∧ s.presc = 0 := by
  simp [tickDue]

/-- The four kinds of clock cycle, with the conditions that choose between them and the state each answers. -/
inductive Cycle (s t : State) : Prop where
  /-- A reset cycle. -/
  | reset (hr : (currentInputs s).rst = true)
      (ht : t = markRefused (currentInputs s).cmdValid (applyReset (passInputs s)))
  /-- A tick cycle. -/
  | tick (hr : (currentInputs s).rst = false) (hrun : s.run = true) (hp : s.presc = 0)
      (ht : t = markRefused (currentInputs s).cmdValid (tickCycle (currentInputs s).swN (passInputs s)))
  /-- A cycle that accepts a command. -/
  | command (hr : (currentInputs s).rst = false) (hd : tickDue s = false)
      (hv : (currentInputs s).cmdValid = true) (hf : s.flt = false)
      (ht : execWord (currentInputs s).cmd (countdown (passInputs s)) = .next t)
  /-- A cycle in which only the countdown moves. -/
  | quiet (hr : (currentInputs s).rst = false) (hd : tickDue s = false)
      (hn : (currentInputs s).cmdValid = false ∨ s.flt = true)
      (ht : t = markRefused (currentInputs s).cmdValid (quietCycle (countdown (passInputs s))))

/-- A step that answers a next state is a clock cycle of one of the four kinds. -/
theorem step_cases {s t : State} (h : step s = .next t) : Cycle s t := by
  simp only [step, clockCycle] at h
  split at h
  · injection h with h
    exact .reset ‹_› h.symm
  · rename_i hr
    simp only [Bool.not_eq_true] at hr
    split at h
    · rename_i hd
      injection h with h
      obtain ⟨hrun, hp⟩ := (tickDue_iff s).1 hd
      exact .tick hr hrun hp h.symm
    · rename_i hd
      simp only [Bool.not_eq_true] at hd
      split at h
      · rename_i hc
        simp only [Bool.and_eq_true, Bool.not_eq_true'] at hc
        exact .command hr hd hc.1 hc.2 h
      · rename_i hc
        injection h with h
        refine .quiet hr hd ?_ h.symm
        revert hc
        cases (currentInputs s).cmdValid <;> cases s.flt <;> simp

/-- No tick is due unless RUN = 1 and PRESC = 0. -/
theorem not_due {s : State} (h : tickDue s = false) : ¬ (s.run = true ∧ s.presc = 0) := fun h' => by
  rw [(tickDue_iff s).2 h'] at h; cases h

theorem currentInputs_of_inputs {s : State} {i : Inputs} {rest : List Inputs} (h : s.inputs = i :: rest) :
    currentInputs s = i := by simp [currentInputs, h]

@[simp] theorem tickRun_nil (s : State) : tickRun [] s = s := rfl

@[simp] theorem tickRun_cons (w : BitVec 2) (ws : List (BitVec 2)) (s : State) :
    tickRun (w :: ws) s = tickRun ws (tick w s) := rfl

theorem tickRun_append (ws vs : List (BitVec 2)) (s : State) :
    tickRun (ws ++ vs) s = tickRun vs (tickRun ws s) := by simp [tickRun]

@[simp] theorem runEvents_nil (s : State) : runEvents [] s = s := rfl

@[simp] theorem runEvents_cons (e : Event) (es : List Event) (s : State) :
    runEvents (e :: es) s = runEvents es (applyEvent e s) := rfl

/-- An event is a reset, a tick, or a command with its register operation or its fault. -/
theorem applyEvent_cases (e : Event) (s : State) :
    (e = .reset ∧ applyEvent e s = applyReset s) ∨
    (∃ w, e = .tick w ∧ applyEvent e s = tick w s) ∨
    (∃ w i s' rsp, e = .hostCmd w ∧ decode w = .command i ∧ i.wellFormed = true ∧ Writes s i s' rsp ∧
      applyEvent e s = complete rsp s') ∨
    (∃ w c, e = .hostCmd w ∧ applyEvent e s = takeFault c s ∧
      ∀ i, decode w = .command i → i.wellFormed = false) := by
  cases e with
  | reset => exact .inl ⟨rfl, rfl⟩
  | tick w => exact .inr (.inl ⟨w, rfl, rfl⟩)
  | hostCmd w =>
    rcases execWord_cases w s with ⟨i, s', rsp, hd, hw, hs, he⟩ | ⟨c, he, hw⟩
    · exact .inr (.inr (.inl ⟨w, i, s', rsp, rfl, hd, hw, hs, by simp [applyEvent, he]⟩))
    · exact .inr (.inr (.inr ⟨w, c, rfl, by simp [applyEvent, he], hw⟩))

/-- PCNT[i] after a tick (43_multiplexer_debounce.md R147). -/
theorem tick_pcnt_get (w : BitVec 2) (s : State) (i : Fin 2) : (tick w s).pcnt[i] = accumulate s i :=
  match i with
  | 0 => rfl
  | 1 => rfl

/-- HIST[i] after a tick (43_multiplexer_debounce.md R148). -/
theorem tick_hist_get (w : BitVec 2) (s : State) (i : Fin 2) :
    (tick w s).hist[i] = shiftIn s.hist[i] (w.getLsbD i) :=
  match i with
  | 0 => rfl
  | 1 => rfl

theorem accumulate_of_boundary {s : State} {i : Fin 2} (ht : s.tcnt = 255) (hh : s.hist[i] = 0) :
    accumulate s i = satInc s.cfg.pressSat s.pcnt[i] := by
  have hb : boundary s.tcnt = true := (boundary_iff_eq _).2 ht
  simp only [accumulate, hb, hh]; rfl

theorem accumulate_of_not {s : State} {i : Fin 2} (h : ¬ (s.tcnt = 255 ∧ s.hist[i] = 0)) :
    accumulate s i = s.pcnt[i] := by
  unfold accumulate
  split
  · rename_i hb
    simp only [Bool.and_eq_true, beq_iff_eq, boundary_iff_eq] at hb
    exact absurd hb h
  · rfl

end Sys2Proof.Machine
end

