-- ==== Sys2Proof/Laws/PerInstr.lean ====
section
/-! SUPPORT. Per-instruction laws about the commands as syntax: the encoded word lies in the row of
30_encoding.md R73 that its mnemonic has. -/

namespace Sys2Proof.Laws.RowMatch

/-- The word of a command is selected by a row of the opcode map, and that row is the command's own. -/
def Statement (i : Instr) : Prop := ∃ r ∈ opcodeMap, r.opcode = i.opcode ∧ r.selects (encode i) = true

theorem nop : Statement .nop := by
  refine ⟨⟨.nop, 0xFFFF, 0x0000⟩, by decide, rfl, by decide⟩

theorem setDigit (pos : Nibble) (dp : Bool) (value : BitVec 7) : Statement (.setDigit pos dp value) := by
  refine ⟨⟨.setDigit, 0xF000, 0x1000⟩, by decide, rfl, ?_⟩
  revert pos dp value; decide

theorem setLight (light : Byte) : Statement (.setLight light) := by
  refine ⟨⟨.setLight, 0xFF00, 0x2000⟩, by decide, rfl, ?_⟩
  revert light; decide

theorem pollPress (sw : Nibble) : Statement (.pollPress sw) := by
  refine ⟨⟨.pollPress, 0xF0FF, 0x3000⟩, by decide, rfl, ?_⟩
  revert sw; decide

theorem lookup (value : Byte) : Statement (.lookup value) := by
  refine ⟨⟨.lookup, 0xFF00, 0x4000⟩, by decide, rfl, ?_⟩
  revert value; decide

theorem tickCtl (run : Bool) : Statement (.tickCtl run) := by
  refine ⟨⟨.tickCtl, 0xFFFE, 0x5000⟩, by decide, rfl, ?_⟩
  revert run; decide

theorem readReg (idx : Nibble) : Statement (.readReg idx) := by
  refine ⟨⟨.readReg, 0xF0FF, 0x6000⟩, by decide, rfl, ?_⟩
  revert idx; decide

end Sys2Proof.Laws.RowMatch
end

