-- ==== Sys2Proof/Laws/Runs.lean ====
section
/-! SUPPORT. Lemmas about runs that later proofs cite: the countdown of a cycle as one update, runs of ticks cut at a
tick, what a run of ticks leaves, and what one event does to a press counter. -/

namespace Sys2Proof.Machine

theorem getElem_set_fin {n : Nat} (v : Vector Byte n) (p q : Fin n) (x : Byte) :
    (v.set p x)[q] = if p = q then x else v[q] := by
  simp [Vector.getElem_set, Fin.ext_iff]

/-- The state a command of this cycle is executed on. -/
theorem countdown_passInputs (s : State) :
    countdown (passInputs s) = { s with
      inputs := s.inputs.tail
      drawn := if s.inputs = [] then s.drawn + 1 else s.drawn
      presc := if s.run then s.presc - 1 else s.presc } := by
  rcases s with ⟨_, _, _, _, _, _, _, _, r, _, _, _, _ | ⟨_, _⟩, _, _⟩ <;> cases r <;> rfl

theorem tickRun_take_succ (ws : List (BitVec 2)) (s : State) {k : Nat} (h : k < ws.length) :
    tickRun (ws.take (k + 1)) s = tick ws[k] (tickRun (ws.take k) s) := by
  rw [show ws.take (k + 1) = ws.take k ++ [ws[k]] by simp, tickRun_append]; rfl

/-- Every tick advances TCNT by exactly one modulo 256 (10_state.md R33). -/
theorem tickRun_tcnt (ws : List (BitVec 2)) (s : State) :
    (tickRun ws s).tcnt.toNat = (s.tcnt.toNat + ws.length) % 256 := by
  induction ws generalizing s with
  | nil => have := s.tcnt.isLt; simp; omega
  | cons w ws ih => simp [ih, nextTick_toNat]; omega

/-- No tick writes LIGHT, DBUF or the parameters. -/
theorem tickRun_frame (ws : List (BitVec 2)) (s : State) :
    (tickRun ws s).light = s.light ∧ (tickRun ws s).dbuf = s.dbuf ∧ (tickRun ws s).cfg = s.cfg := by
  induction ws generalizing s with
  | nil => simp
  | cons w ws ih => simp [ih]

/-- POLL_PRESS of an existing switch as one equation (44_press_classifier.md R170). -/
theorem exec_pollPress {sw : Nibble} {i : Fin 2} (s : State) (hi : sw.toNat = i.val) :
    exec (.pollPress sw) s = .next
      (if s.hist[i] ≠ 0 then complete (classify s.pcnt[i]).code (clearPress i s) else complete 0x00 s) := by
  simp only [exec, execPollPress, switchOf_eq_some.2 hi]
  split <;> rfl

/-- What one event does to PCNT[i]: a clearing event clears it, a counting boundary tick counts, and nothing else
touches it. -/
theorem applyEvent_pcnt (e : Event) (s : State) (i : Fin 2) :
    (clearsPress i e s = true → (applyEvent e s).pcnt[i] = 0) ∧
    (clearsPress i e s = false → (applyEvent e s).pcnt[i] = match e with
      | .tick _ => if s.tcnt = 255 ∧ s.hist[i] = 0 then satInc s.cfg.pressSat s.pcnt[i] else s.pcnt[i]
      | _ => s.pcnt[i]) := by
  rcases applyEvent_cases e s with ⟨rfl, h⟩ | ⟨w, rfl, h⟩ | ⟨w, k, s', rsp, rfl, hd, -, hs, h⟩ | ⟨w, c, rfl, h, hh⟩
  · rw [h]
    refine ⟨fun _ => ?_, by simp [clearsPress]⟩
    match i with
    | 0 => rfl
    | 1 => rfl
  · rw [h]
    refine ⟨by simp [clearsPress], fun _ => ?_⟩
    rw [tick_pcnt_get]
    simp only []
    split
    · rename_i hc; exact accumulate_of_boundary hc.1 hc.2
    · rename_i hc; exact accumulate_of_not hc
  · rw [h]
    cases hs with
    | pollReleased j hj hne =>
      simp only [clearsPress, hd, complete_pcnt, clearPress_pcnt, getElem_set_fin]
      by_cases e : j = i
      · subst e
        exact ⟨fun _ => by simp, fun hc => absurd hc (by simpa [hj] using hne)⟩
      · have hv : ¬ j.val = i.val := fun h' => e (Fin.ext h')
        exact ⟨fun hc => by simp [hj, hv] at hc, fun _ => by rw [if_neg e]⟩
    | pollHeld j hj hz =>
      simp only [clearsPress, hd]
      refine ⟨fun hc => ?_, fun _ => by simp⟩
      simp only [Bool.and_eq_true, beq_iff_eq, bne_iff_ne] at hc
      obtain rfl : j = i := Fin.ext (hj.symm.trans hc.1)
      exact absurd hz hc.2
    | _ => exact ⟨fun hc => by simp [clearsPress, hd] at hc, fun _ => by simp⟩
  · rw [h]
    refine ⟨fun hc => ?_, fun _ => by simp⟩
    simp only [clearsPress] at hc
    split at hc
    · rename_i sw hd
      have hw := hh _ hd
      have hi := i.isLt
      simp only [Instr.wellFormed, swLegal, decide_eq_false_iff_not] at hw
      simp only [Bool.and_eq_true, beq_iff_eq] at hc
      omega
    · cases hc

/-- No event changes the build-time parameters. -/
theorem applyEvent_cfg (e : Event) (s : State) : (applyEvent e s).cfg = s.cfg := by
  rcases applyEvent_cases e s with ⟨-, h⟩ | ⟨w, -, h⟩ | ⟨w, k, s', rsp, -, -, -, hs, h⟩ | ⟨w, c, -, h, -⟩ <;> rw [h]
  · simp
  · simp
  · simp [hs.frame.1]
  · simp

end Sys2Proof.Machine
end

