-- ==== Sys2Proof/Tests/Slice0.lean ====
section
/-! SUPPORT. Tests: the ill-formed terms WellFormed refuses; words written out from 30_encoding.md R73 and their
decoding; one step of each command and of TICK with the expected bytes of 95_test_vectors.md; and for every
obligation with hypotheses a concrete witness that meets them. -/

namespace Sys2Proof.Machine.Tests

/-! ## WellFormed: one ill-formed term for each check -/

theorem test_wellFormed_refuses_position_4 : (Instr.setDigit 4 false 0).wellFormed = false := by decide
theorem test_wellFormed_refuses_digit_value_14 : (Instr.setDigit 3 true 0x14).wellFormed = false := by decide
theorem test_wellFormed_refuses_switch_2 : (Instr.pollPress 2).wellFormed = false := by decide
theorem test_wellFormed_refuses_lookup_14 : (Instr.lookup 0x14).wellFormed = false := by decide
theorem test_wellFormed_refuses_index_D : (Instr.readReg 0xD).wellFormed = false := by decide
theorem test_wellFormed_accepts_the_last_legal_operands :
    ([.nop, .setDigit 3 true 0x13, .setLight 0xFF, .pollPress 1, .lookup 0x13, .tickCtl true,
      .readReg 0xC] : List Instr).all Instr.wellFormed = true := by decide

/-! ## Decoding: each row's pattern of 30_encoding.md R73 written out bit by bit -/

theorem test_decode_nop : decode 0b0000000000000000 = .command .nop := by decide
theorem test_decode_setDigit : decode 0b0001001010000111 = .command (.setDigit 2 true 0x07) := by decide
theorem test_decode_setDigit_no_point : decode 0b0001110000000101 = .command (.setDigit 12 false 0x05) := by decide
theorem test_decode_setLight : decode 0b0010000011001000 = .command (.setLight 200) := by decide
theorem test_decode_pollPress : decode 0b0011000100000000 = .command (.pollPress 1) := by decide
theorem test_decode_lookup : decode 0b0100000000010010 = .command (.lookup 0x12) := by decide
theorem test_decode_tickCtl : decode 0b0101000000000001 = .command (.tickCtl true) := by decide
theorem test_decode_readReg : decode 0b0110101100000000 = .command (.readReg 0xB) := by decide
theorem test_decode_reserved_words :
    [0x2F00, 0x3180, 0x5003, 0x7000, 0xFFFF, 0x0001, 0x0100, 0x4113].map decode =
      [.reserved .nonzeroIndex, .reserved .nonzeroData, .reserved .nonzeroData, .reserved .unassignedOpcode,
       .reserved .unassignedOpcode, .reserved .nonzeroData, .reserved .nonzeroIndex, .reserved .nonzeroIndex] := by
  decide
theorem test_decodeTableWord : decodeTableWord 16 0x1287 = some (.setDigit 2 true 0x07) := by decide
/-- Words of 30_encoding.md R78 and R79. -/
theorem test_encode_words :
    [encode tickStart, encode tickStop, encode (blankDigit 2), encode (.setDigit 2 true 7), encode (.readReg 5)] =
      [0x5001, 0x5000, 0x1210, 0x1287, 0x6500] := by decide

/-! ## One step -/

/-- Parameters with TICK_PERIOD = 5 and the spec's defaults. -/
def params : Params := { tickPeriod := 5, prescW := 16, pressSat := 255, segRom := defaultSegRom }

/-- One cycle's inputs: the word presented, both switches released. -/
def present (w : CmdWord) : Inputs := { rst := false, cmdValid := true, cmd := w, swN := 0b11 }

/-- One cycle's inputs: nothing presented. -/
def noCommand (swN : BitVec 2) : Inputs := { rst := false, cmdValid := false, cmd := 0, swN := swN }

/-- One cycle's inputs: reset, with a word presented. -/
def resetting (w : CmdWord) : Inputs := { present w with rst := true }

/-- The state of 95_test_vectors.md section 2.6, its countdown at 2, with the inputs given. -/
def busy (inputs : List Inputs) : State :=
  { State.reset with
    cfg := params, dbuf := #v[0x11, 0x22, 0x33, 0x44], light := 0x55, tcnt := 0x66, hist := #v[0x01, 0x00]
    pcnt := #v[0x05, 0x90], segOut := 0x77, digSel := 0b0100, run := true, presc := 2, inputs := inputs }

/-- The reset state with TICK_PERIOD = 5 and the inputs given. -/
def fresh (inputs : List Inputs) : State := { State.reset with cfg := params, presc := 4, inputs := inputs }

/-- The outcome is a next state that passes the check. -/
def nextIs (o : Host.Outcome State Fault Refusal) (check : State → Bool) : Bool :=
  match o with
  | .next t => check t
  | _ => false

/-- The next state of a step, and the state after k steps; each step of this model answers one. -/
def after (s : State) : State := match step s with | .next t => t | _ => s
def stateAt (s : State) : Nat → State
  | 0 => s
  | n + 1 => after (stateAt s n)

/-- Section 2.2: `SET_DIGIT 2, 7, DP` over DBUF = 11 22 33 44, and the whole of the cycle's countdown. -/
theorem test_setDigit_stores : nextIs (step (busy [present 0x1287])) (fun t =>
    t.dbuf == #v[0x11, 0x22, 0x87, 0x44] && t.presc == 1 && t.segOut == 0x77 && t.out.rsp == 0) = true := by decide
/-- Section 2.2: position 4 and value 0x14 together report the position. -/
theorem test_setDigit_checks_position_first : nextIs (step (busy [present 0x1414])) (fun t =>
    t.dbuf == #v[0x11, 0x22, 0x33, 0x44] && t.flt && t.fcode == 2 && t.out.rsp == 0) = true := by decide
/-- Section 2.6: `SET_LIGHT 200`. -/
theorem test_setLight : nextIs (step (busy [present 0x20C8])) (fun t => t.light == 0xC8 && !t.flt) = true := by decide
/-- Section 2.6: `.word 0x2100` faults and leaves LIGHT. -/
theorem test_setLight_nonzero_index_faults : nextIs (step (busy [present 0x2100])) (fun t =>
    t.light == 0x55 && t.fcode == 1) = true := by decide
/-- Section 2.5: PCNT[0] = 05, HIST[0] = 01 is SHORT and clears. -/
theorem test_pollPress_short : nextIs (step (busy [present 0x3000])) (fun t =>
    t.out.rsp == 0x01 && t.pcnt == #v[0x00, 0x90] && t.hist == #v[0x01, 0x00]) = true := by decide
/-- Section 2.5: PCNT[1] = 90, HIST[1] = 00 is NONE and keeps counting. -/
theorem test_pollPress_held : nextIs (step (busy [present 0x3100])) (fun t =>
    t.out.rsp == 0x00 && t.pcnt == #v[0x05, 0x90]) = true := by decide
/-- Section 2.1, `LOOKUP 0x12` returns 0x74. -/
theorem test_lookup : nextIs (step (busy [present 0x4012])) (fun t => t.out.rsp == 0x74 && !t.flt) = true := by decide
/-- Section 2.1, `LOOKUP 0x14` faults with code 4. -/
theorem test_lookup_out_of_domain : nextIs (step (busy [present 0x4014])) (fun t => t.flt && t.fcode == 4) = true := by
  decide
/-- Section 2.7: RUN = 1, PRESC = 2, `TICK_CTL 1` counts down to 1 and does not reload. -/
theorem test_tickCtl_running_does_not_reload : nextIs (step (busy [present 0x5001])) (fun t =>
    t.run && t.presc == 1) = true := by decide
/-- Section 2.7: RUN = 0, `TICK_CTL 1` reloads TICK_PERIOD - 1. -/
theorem test_tickCtl_start_reloads : nextIs (step { fresh [present 0x5001] with presc := 1 }) (fun t =>
    t.run && t.presc == 4) = true := by decide
/-- Section 2.6: READ_REG of DIG_SEL and TCTL are zero-extended: 04 and 01. -/
theorem test_readReg_narrow_registers :
    (nextIs (step (busy [present 0x6B00])) (·.out.rsp == 0x04) && nextIs (step (busy [present 0x6C00])) (·.out.rsp == 0x01)
      && nextIs (step (busy [present 0x6800])) (fun t => t.out.rsp == 0x05 && t.pcnt == #v[0x05, 0x90])) = true := by
  decide
theorem test_readReg_reserved_index : nextIs (step (busy [present 0x6D00])) (fun t => t.fcode == 1) = true := by decide
theorem test_nop : nextIs (step (busy [present 0x0000])) (fun t =>
    t.out == completedOutputs 0x00 && t.presc == 1 && t.tcnt == 0x66) = true := by decide

/-- The example of 43_multiplexer_debounce.md R140. -/
theorem test_tick_example :
    (fun t : State => t.segOut == 0x4F && t.digSel == 0b1000 && t.tcnt == 0x00 && t.pcnt == #v[0x04, 0x00] &&
        t.hist == #v[0x01, 0x03] && t.out.pins == [.deselectAllDigits, .setSegmentBits 0x4F, .selectDigit 3])
      (tick 0b11 { busy [] with
        tcnt := 0xFF, light := 0x00, dbuf := #v[0, 0, 0, 0x4F], hist := #v[0x00, 0x01], pcnt := #v[0x03, 0x00] })
      = true := by decide
/-- Section 2.3, LIGHT = F7, t = F7: unlit, both comparisons strict. -/
theorem test_tick_unlit :
    (fun t : State => t.segOut == 0x77 && t.digSel == 0b0000 && t.tcnt == 0xF8 && t.out.pins == [.deselectAllDigits])
      (tick 0b11 { busy [] with tcnt := 0xF7, light := 0xF7 }) = true := by decide
/-- Section 2.4, the third row: a history of 80 does not count although it becomes 0 now. -/
theorem test_tick_boundary_reads_history_before_shift :
    (fun t : State => t.pcnt == #v[0x05, 0x06] && t.hist == #v[0x00, 0x00])
      (tick 0b00 { busy [] with tcnt := 0xFF, hist := #v[0x80, 0x00], pcnt := #v[0x05, 0x05] }) = true := by decide
/-- Section 2.4: with PRESS_SAT = 129 the count 81 stays and 80 becomes 81. -/
theorem test_tick_saturates :
    (tick 0b00 { busy [] with cfg := { params with pressSat := 129 }, tcnt := 0xFF, hist := #v[0, 0], pcnt := #v[0x81, 0x80] }).pcnt
      = #v[0x81, 0x81] := by decide
/-- Section 2.9 and 60_exceptions.md R200: reset beats a due tick and a presented command. -/
theorem test_reset_beats_tick_and_command : nextIs (step { busy [resetting 0x20FF] with presc := 0, flt := true, fcode := 4 })
    (fun t => t.light == 0 && t.tcnt == 0 && !t.run && t.presc == 4 && !t.flt && t.fcode == 0 && !t.out.cmdReady) = true := by
  decide
/-- 60_exceptions.md R200: a due tick beats a presented command. -/
theorem test_tick_beats_command : nextIs (step { busy [present 0x20FF] with presc := 0 })
    (fun t => t.light == 0x55 && t.tcnt == 0x67 && t.presc == 4 && t.out.tick && t.out.host == .notAccepted) = true := by
  decide
/-- Section 3.4, cycle 3: a faulted port accepts nothing and the countdown goes on. -/
theorem test_faulted_port_accepts_nothing : nextIs (step { busy [present 0x1106] with flt := true, fcode := 2 })
    (fun t => t.presc == 1 && t.fcode == 2 && t.dbuf == #v[0x11, 0x22, 0x33, 0x44] && t.out.host == .notAccepted) = true := by
  decide
/-- The word placed by withFetchWord runs as the first command after reset, and after a fault with a tick due. -/
theorem test_withFetchWord :
    (nextIs (step (State.reset.withFetchWord 16 0x4007)) (fun t => t.out.rsp == 0x07 && t.out.host == .completed)
      && nextIs (step ({ busy [] with presc := 0, flt := true, fcode := 2 }.withFetchWord 16 0x20FF))
        (fun t => t.light == 0xFF && t.out.host == .completed)) = true := by decide
/-- Every index of 40_segment_lookup.md R93, read through the table. -/
theorem test_default_table_is_legal : params.Legal := by decide

/-! ## Witnesses: each obligation's hypotheses hold of a concrete state -/

theorem legal_params : params.Legal := test_default_table_is_legal

theorem busy_inv (inputs : List Inputs) : Inv (busy inputs) where
  legal := legal_params
  digSel := .inr ⟨2, rfl⟩
  pcnt := fun i => match i with
    | 0 => show 0x05#8 ≤ 0xFF#8 by decide
    | 1 => show 0x90#8 ≤ 0xFF#8 by decide
  presc := show 2 ≤ 5 - 1 by decide
  noFault := fun _ => rfl
  faultCode := fun h => by cases h

/-- ReservedWordsFault, NopChangesNothing, SetLightStoresOperand, TickCtlWritesRun: a reserved word for each clause, at
the edges of its range. -/
theorem witness_reserved_words :
    (decode 0x6001 = .reserved .nonzeroData ∧ decode 0x4113 = .reserved .nonzeroIndex) ∧
    (decode 0x7000 = .reserved .unassignedOpcode ∧ decode 0x0001 = .reserved .nonzeroData) ∧
    (decode 0x2100 = .reserved .nonzeroIndex ∧ decode 0x3001 = .reserved .nonzeroData) ∧
    (decode 0x5002 = .reserved .nonzeroData ∧ decode 0x5FFF = .reserved .nonzeroIndex) ∧
    (decode 0x6D00 = .command (.readReg 0xD) ∧ decode 0x6F00 = .command (.readReg 0xF)) := by decide

/-- RstCycleResetsEverything. -/
theorem witness_rst : (currentInputs (busy [resetting 0x0000])).rst = true := rfl

/-- EveryCycleKeepsInvariants, EveryStateHasANextStep, CmdReadyAndAcceptance (first clauses), OutputPortsOfACycle,
AgentsWriteTheirOwnRegisters (no tick): an invariant state with a step. -/
theorem witness_step : Inv (busy [present 0x0000]) ∧ step (busy [present 0x0000]) = .next (after (busy [present 0x0000])) ∧
    (currentInputs (busy [present 0x0000])).rst = false ∧ (after (busy [present 0x0000])).out.tick = false :=
  ⟨busy_inv _, rfl, rfl, rfl⟩

/-- EveryCycleKeepsInvariants, its (e): a stopped state with a step. -/
theorem witness_stopped_step : step (fresh [noCommand 0]) = .next (after (fresh [noCommand 0])) ∧
    (fresh [noCommand 0]).run = false := ⟨rfl, rfl⟩

/-- AgentsWriteTheirOwnRegisters (tick), with the counters under the ceiling; TickCycleResult, a lit boundary tick and
an unlit one. -/
theorem witness_tick_cycle :
    (let s := { busy [noCommand 0] with presc := 0, tcnt := 0xFF }
     (currentInputs s).rst = false ∧ s.run = true ∧ s.presc = 0 ∧ step s = .next (after s) ∧ (after s).out.tick = true ∧
       s.pcnt[0] ≤ s.cfg.pressSat ∧ 247 < s.tcnt.toNat ∧ s.tcnt.toNat = 255 ∧ s.hist[1] = 0) ∧
    (let s := { busy [noCommand 0] with presc := 0, tcnt := 0x55 }
     (currentInputs s).rst = false ∧ s.run = true ∧ s.presc = 0 ∧ ¬ (247 < s.tcnt.toNat ∨ s.light.toNat < s.tcnt.toNat)) :=
  ⟨⟨rfl, rfl, rfl, rfl, rfl, by decide, by decide, by decide, by decide⟩, ⟨rfl, rfl, rfl, by decide⟩⟩

/-- SetDigitStoresWholeCode, RangeChecksDecideFaults: each clause at the edge of its range. -/
theorem witness_setDigit_clauses :
    3 < (4#4).toNat ∧ ((3#4).toNat ≤ 3 ∧ 0x13 < (0x14#7).toNat) ∧
    ((3#4).toNat = (3 : Fin 4).val ∧ (0x13#7).toNat = (0x13 : Fin 20).val) := by decide

/-- SetDigitStoresWholeCode, LookupReturnsTableEntry: the clauses over a legal table, DP_ONLY and BLANK with DP. -/
theorem witness_setDigit_specials : (busy []).cfg.Legal ∧ (0x13#7).toNat = (0x13 : Fin 20).val ∧
    (0x10#7).toNat = (0x10 : Fin 20).val := ⟨legal_params, by decide, by decide⟩

/-- RepeatedCommandsAreIdempotent: a start, repeated, and a poll that reports, repeated. -/
theorem witness_repeated :
    (∀ sw, Instr.tickCtl true ≠ .pollPress sw) ∧
    exec (.tickCtl true) (fresh []) = .next (complete 0x00 (setRun true (fresh []))) ∧
    (0#4).toNat ≤ 1 ∧ exec (.pollPress 0) (busy []) = .next (complete 0x01 (clearPress 0 (busy []))) :=
  ⟨fun _ h => (by cases h), rfl, by decide, rfl⟩

/-- ShareOfEachDigit: a window at LIGHT = 0 and one at LIGHT = 247. -/
theorem witness_share :
    (fresh []).tcnt = 0 ∧ (List.replicate 256 (0b11 : BitVec 2)).length = 256 ∧ (fresh []).light = 0 ∧
    ({ fresh [] with light := 247 } : State).tcnt = 0 ∧ 247 ≤ ({ fresh [] with light := 247 } : State).light.toNat :=
  ⟨rfl, List.length_replicate, rfl, rfl, by decide⟩

/-- SetDigitReadsBackAfterAnyRun: a completing SET_DIGIT 1, 3, DP, a tick, a SET_DIGIT of another slot, a poll. -/
theorem witness_read_back :
    (1#4).toNat = (1 : Fin 4).val ∧ (3#7).toNat = (3 : Fin 20).val ∧
    exec (.setDigit 1 true 3) (busy []) =
      .next (complete 0x00 (setSlot 1 (0x4F ||| 0x80) (busy []))) ∧
    (∀ e ∈ [Event.tick 0b11, .hostCmd 0x1005, .hostCmd 0x3000], e ≠ .reset ∧
      ∀ w dp' value', e = .hostCmd w → decode w ≠ .command (.setDigit 1 dp' value')) := by
  refine ⟨by decide, by decide, rfl, ?_⟩
  intro e he
  simp only [List.mem_cons, List.not_mem_nil, or_false] at he
  obtain rfl | rfl | rfl := he
  · exact ⟨by decide, fun _ _ _ h => by cases h⟩
  · exact ⟨by decide, fun _ dp' value' h => by cases h; rw [show decode 0x1005 = .command (.setDigit 0 false 5) by decide]; simp⟩
  · exact ⟨by decide, fun _ dp' value' h => by cases h; rw [show decode 0x3000 = .command (.pollPress 0) by decide]; simp⟩

/-- SetDigitReadsBackAfterAnyRun, its last clause: a run without any SET_DIGIT. -/
theorem witness_read_back_no_setDigit :
    ∀ w pos' dp' value', .hostCmd w ∈ [Event.tick 0b11, .hostCmd 0x3000] →
      decode w ≠ .command (.setDigit pos' dp' value') := by
  intro w pos' dp' value' h
  simp only [List.mem_cons, List.not_mem_nil, or_false] at h
  obtain h | h := h
  · cases h
  · cases h; rw [show decode 0x3000 = .command (.pollPress 0) by decide]; simp

/-- FaultRecordsOnlyItsCause: an accepted SET_DIGIT with two failing checks. -/
theorem witness_faulting_cycle : step (busy [present 0x1414]) = .next (after (busy [present 0x1414])) ∧
    (after (busy [present 0x1414])).out.host = .faulted .positionOutOfRange := ⟨rfl, rfl⟩

/-- CmdReadyAndAcceptance, the clause about a refused command: one presented in a tick cycle. -/
theorem witness_refused :
    (let s := { busy [present 0x20C8] with presc := 0 }
     step s = .next (after s) ∧ s.inputs = present 0x20C8 :: [] ∧ (after s).out.host = .notAccepted) := ⟨rfl, rfl, rfl⟩

/-- DecimalPointBitOfStoredSlot: both clauses at their edge. -/
theorem witness_decimal_point : (busy []).cfg.Legal ∧ (3#4).toNat = (3 : Fin 4).val ∧
    (0x12#7).toNat ≤ 0x12 ∧ (0x13#7).toNat = 0x13 := ⟨legal_params, by decide, by decide, by decide⟩

/-- LookupReturnsTableEntry: the last value of the domain and the first outside it. -/
theorem witness_lookup_clauses : (0x13#8).toNat = (0x13 : Fin 20).val ∧ 0x13 < (0x14#8).toNat := by decide

/-- LookupNeverChangesItsAnswer, CyclesProjectOntoEvents: a trace of two cycles, a command and a reset. -/
theorem witness_trace : Trace 2 (stateAt (busy [present 0x20FF, resetting 0x0000])) := by
  intro j hj
  match j, hj with
  | 0, _ => rfl
  | 1, _ => rfl

/-- TickCtlCycleNeverPostponesATick: a stop accepted while running, and a start. -/
theorem witness_tickCtl_cycle :
    (let s := busy [present 0x5000]
     (currentInputs s).rst = false ∧ (currentInputs s).cmdValid = true ∧
       decode (currentInputs s).cmd = .command (.tickCtl false) ∧ s.flt = false ∧ (s.run = true → s.presc ≠ 0)) ∧
    (let s := fresh [present 0x5001]
     (currentInputs s).rst = false ∧ (currentInputs s).cmdValid = true ∧
       decode (currentInputs s).cmd = .command (.tickCtl true) ∧ s.flt = false ∧ (s.run = true → s.presc ≠ 0)) :=
  ⟨⟨rfl, rfl, by decide, rfl, fun _ => by decide⟩, ⟨rfl, rfl, by decide, rfl, fun h => by cases h⟩⟩

/-- PollPressClassifiesAndClears, PollPressMovesReportPendingToIdle: a released switch with a report pending, a held
one, and the first id outside. -/
theorem witness_poll_clauses :
    ((0#4).toNat = (0 : Fin 2).val ∧ (busy []).hist[0] ≠ 0 ∧ pressState (busy []) 0 = .reportPending) ∧
    ((1#4).toNat = (1 : Fin 2).val ∧ (busy []).hist[1] = 0) ∧ 1 < (2#4).toNat := by decide

/-- 44_press_classifier.md R171: the edges of the thresholds, as PollPressClassifiesAndClears has them. -/
theorem witness_poll_thresholds :
    [0x03, 0x04, 0x80, 0x81].map (fun c : Byte => (classify c).code) = [0x00, 0x01, 0x01, 0x02] := by decide

/-- CommandsWriteOnlyTheirRegisters: a command that writes each kind of register it speaks of. -/
theorem witness_command_frames :
    exec (.setLight 1) (busy []) = .next (complete 0x00 (setLight 1 (busy []))) ∧
    (complete 0x00 (setLight 1 (busy []))).light ≠ (busy []).light ∧
    exec (.pollPress 0) (busy []) = .next (complete 0x01 (clearPress 0 (busy []))) ∧
    (complete 0x01 (clearPress 0 (busy []))).pcnt[0] ≠ (busy []).pcnt[0] ∧
    exec (.tickCtl true) (fresh []) = .next (complete 0x00 (setRun true (fresh []))) ∧
    (complete 0x00 (setRun true (fresh []))).run ≠ (fresh []).run :=
  ⟨rfl, by decide, rfl, by decide, rfl, by decide⟩

/-- PollPressSwitchesIndependent: two states that differ in the other switch's registers. -/
theorem witness_poll_independent :
    (0#4).toNat = (0 : Fin 2).val ∧ (0 : Fin 2) ≠ 1 ∧
    (busy []).hist[0] = { busy [] with hist := #v[0x01, 0xFF] }.hist[0] ∧
    (busy []).pcnt[0] = { busy [] with hist := #v[0x01, 0xFF] }.pcnt[0] := by decide

/-- StepRunsDecodedCommand: a running core one cycle before its tick. -/
theorem witness_step_runs :
    (let s := { busy [present 0x20C8] with presc := 1 }
     (currentInputs s).rst = false ∧ (s.run = true → s.presc ≠ 0) ∧ (currentInputs s).cmdValid = true ∧ s.flt = false ∧
       decode (currentInputs s).cmd = .command (.setLight 200)) :=
  ⟨rfl, fun _ => by decide, rfl, rfl, by decide⟩

/-- CmdReadyAndAcceptance, its last clause: a tick cycle and the cycle after it, a command presented in both. -/
theorem witness_wait_one_cycle :
    (let s := { busy [present 0x20C8, present 0x20C8] with presc := 0 }
     let t := after s
     s.cfg.Legal ∧ s.flt = false ∧ (currentInputs s).rst = false ∧ s.run = true ∧ s.presc = 0 ∧ step s = .next t ∧
       (currentInputs t).rst = false ∧ (currentInputs t).cmdValid = true ∧ step t = .next (after t)) :=
  ⟨legal_params, rfl, rfl, rfl, rfl, rfl, rfl, rfl, rfl⟩

/-- ReturnValueOfACycle: a completing READ_REG. -/
theorem witness_return_value : step (busy [present 0x6400]) = .next (after (busy [present 0x6400])) ∧
    (after (busy [present 0x6400])).out.host = .completed := ⟨rfl, rfl⟩

/-- StoppedCoreHoldsItsState. -/
theorem witness_stopped : (fresh [noCommand 0]).run = false ∧ (currentInputs (fresh [noCommand 0])).rst = false ∧
    (currentInputs (fresh [noCommand 0])).cmdValid = false := ⟨rfl, rfl, rfl⟩

/-- TicksAreExactlyPeriodic: TICK_PERIOD = 2, a start in cycle 0, the first tick in cycle 2. -/
theorem witness_periodic :
    (let s := { fresh [present 0x5001, noCommand 3, noCommand 3] with cfg := { params with tickPeriod := 2 } }
     let u := stateAt s
     Trace 3 u ∧ (u 0).cfg.Legal ∧ (u 0).run = false ∧
       cycleEvent (u 0) = some (.hostCmd (encode (.tickCtl true))) ∧
       (∀ j, 1 ≤ j → j < 3 → (currentInputs (u j)).rst = false ∧ (u j).run = true) ∧ (u 3).out.tick = true) := by
  refine ⟨?_, by decide, rfl, by decide, ?_, rfl⟩
  · intro j hj
    match j, hj with
    | 0, _ => rfl
    | 1, _ => rfl
    | 2, _ => rfl
  · intro j h1 hj
    match j, h1, hj with
    | 1, _, _ => exact ⟨rfl, rfl⟩
    | 2, _, _ => exact ⟨rfl, rfl⟩

/-- FaultStopsTheHostNotTheTicks: a faulted core whose tick comes in the second cycle. -/
theorem witness_faulted_trace :
    (let s := { busy [present 0x0000, noCommand 3] with flt := true, fcode := 4, presc := 1 }
     let u := stateAt s
     Trace 2 u ∧ (u 0).cfg.Legal ∧ (u 0).flt = true ∧ (u 0).presc ≤ (u 0).cfg.tickPeriod - 1 ∧
       (∀ j < 2, (currentInputs (u j)).rst = false) ∧ (u 2).out.tick = true) := by
  refine ⟨?_, legal_params, rfl, by decide, ?_, rfl⟩
  all_goals
    intro j hj
    match j, hj with
    | 0, _ => rfl
    | 1, _ => rfl

/-- WellFormedHostNeverFaults: a host that presents one legal word. -/
theorem witness_wellFormed_host :
    (let u := stateAt (busy [present 0x1313])
     Trace 1 u ∧ Safe (u 0) ∧ ∀ j < 1, (currentInputs (u j)).cmdValid = true →
       ∃ i : Instr, decode (currentInputs (u j)).cmd = .command i ∧ i.wellFormed = true) := by
  refine ⟨?_, rfl, ?_⟩
  all_goals
    intro j hj
    match j, hj with
    | 0, _ => first | rfl | exact fun _ => ⟨.setDigit 3 false 0x13, by decide, by decide⟩

/-- DutyCycleOfAWindow, AlignedHeldWindowCountsOnce, DigitRotation: windows of held samples from TCNT = 0. -/
theorem witness_window :
    (fresh []).tcnt = 0 ∧ (List.replicate 256 (0b10 : BitVec 2)).length = 256 ∧
    (∀ w ∈ List.replicate 256 (0b10 : BitVec 2), w.getLsbD (0 : Fin 2).val = false) ∧
    (fresh []).pcnt[0] ≤ (fresh []).cfg.pressSat ∧ (List.replicate 4 (0b11 : BitVec 2)).length = 4 := by
  refine ⟨rfl, List.length_replicate, ?_, by decide, rfl⟩
  intro w hw
  rw [List.eq_of_mem_replicate hw]; decide

/-- DigitRotation, its last clause: four lit ticks in a row. -/
theorem witness_four_lit_ticks : ∀ k : Fin 4,
    (tickRun ((List.replicate 4 (0b11 : BitVec 2)).take (k.val + 1)) { busy [] with light := 0 }).digSel ≠ 0b0000 := by
  decide

/-- HistoryBitsAreRecentSamples, HistoryIsZeroIffHeld (second clause), UpdateMayBeOvertakenByATick. -/
theorem witness_short_run : (7 < 8 ∧ 7 < (List.replicate 8 (0b10 : BitVec 2)).length) ∧
    (List.replicate 8 (0b10 : BitVec 2)).length ≤ 8 ∧ 8 ≤ (List.replicate 8 (0b10 : BitVec 2)).length ∧
    (fresh []).hist[0] = 0 ∧ 4 ≤ 4 := by decide

/-- BoundaryCountsEarlierSamples: eight samples that end at TCNT = 255. -/
theorem witness_boundary :
    (let s := { fresh [] with tcnt := 0xF7 }
     8 ≤ (List.replicate 8 (0b00 : BitVec 2)).length ∧ (tickRun (List.replicate 8 0b00) s).tcnt = 255 ∧
       (tickRun (List.replicate 8 0b00) s).pcnt[0] < s.cfg.pressSat) := by decide

/-- PressCounterCountsHeldWindows, HeldForNWindowsIsClassifiedByN: a boundary tick that counts, a poll while held, and
the release sample. -/
theorem witness_held_window :
    (let s := { fresh [] with tcnt := 0xFF }
     let es := [Event.tick 0b10, .hostCmd 0x3000, .tick 0b11]
     s.cfg.Legal ∧ s.pcnt[0] = 0 ∧ neverClears 0 es s ∧ (0#4).toNat = (0 : Fin 2).val ∧
       (runEvents es s).hist[0] ≠ 0 ∧ countedWindows 0 es s = 1) :=
  ⟨legal_params, rfl, ⟨rfl, by decide, rfl, trivial⟩, by decide, by decide, by decide⟩

/-- PressIsReportedOnce: a reporting poll, then a counted boundary tick and the release sample; and then a held tick. -/
theorem witness_reported_once :
    (let s := { busy [] with hist := #v[0x80, 0x00], tcnt := 0xFE }
     let t := complete 0x01 (clearPress 0 s)
     (0#4).toNat = (0 : Fin 2).val ∧ s.hist[0] ≠ 0 ∧ exec (.pollPress 0) s = .next t ∧
       countedWindows 0 [.tick 0b10, .tick 0b10, .tick 0b11] t = 1 ∧
       (runEvents [.tick 0b10, .tick 0b10] t).hist[0] = 0) := ⟨by decide, by decide, rfl, by decide, by decide⟩

/-- PressSatInvisibleToPollPress: two cores with the ceilings 255 and 129. -/
theorem witness_two_ceilings :
    (let s := busy [present 0x3000]
     let s' := { s with cfg := { s.cfg with pressSat := 129 } }
     Trace 1 (stateAt s) ∧ Trace 1 (stateAt s') ∧ s.cfg.Legal ∧ (129#8) ≤ 129 ∧
       cycleEvent s = some (.hostCmd 0x3000) ∧ decode 0x3000 = .command (.pollPress 0)) := by
  refine ⟨?_, ?_, legal_params, by decide, by decide, by decide⟩
  all_goals
    intro j hj
    match j, hj with
    | 0, _ => rfl

/-- FirstTicksAfterReset. -/
theorem witness_switch_ids : (0#4).toNat = (0 : Fin 2).val ∧ (1#4).toNat = (1 : Fin 2).val := by decide

end Sys2Proof.Machine.Tests
end

/-! ## READ_REG and reserved words

The rules a reserved word and the register index space need: the fields of a word as numbers, the one row of the
opcode map that an opcode leaves, and READ_REG as one equation per kind of index. -/

section

namespace Sys2Proof

/-! ### The fields of a command word (30_encoding.md R71) -/

theorem opField_toNat (w : CmdWord) : (opField w).toNat = w.toNat / 4096 := by
  have := w.isLt
  simp only [opField, BitVec.extractLsb'_toNat, Nat.shiftRight_eq_div_pow]
  omega

theorem dField_toNat (w : CmdWord) : (dField w).toNat = w.toNat % 256 := by
  simp [dField, BitVec.extractLsb'_toNat]

theorem fields_toNat (op a : Nibble) (d : Byte) :
    (op ++ a ++ d).toNat = 0x1000 * op.toNat + 0x100 * a.toNat + d.toNat := by
  have ha := a.isLt
  have hd := d.isLt
  rw [BitVec.toNat_append, BitVec.toNat_append, ← Nat.shiftLeft_add_eq_or_of_lt hd,
    ← Nat.shiftLeft_add_eq_or_of_lt ha, Nat.shiftLeft_eq, Nat.shiftLeft_eq]
  omega

/-! ### Which words no row selects (30_encoding.md R73, R74) -/

/-- A row that selects a word agrees with it in each field, as far as its mask covers the field. -/
theorem OpcodeRow.fields_of_selects {r : OpcodeRow} {w : CmdWord} (h : r.selects w = true) :
    opField w &&& opField r.mask = opField r.pattern ∧ aField w &&& aField r.mask = aField r.pattern ∧
      dField w &&& dField r.mask = dField r.pattern := by
  have hm : w &&& r.mask = r.pattern := by simpa [OpcodeRow.selects] using h
  simp only [← hm, opField, aField, dField, BitVec.extractLsb'_and, and_self]

/-- Every row fixes the whole opcode of its words. -/
theorem opField_mask_of_mem_opcodeMap : ∀ r ∈ opcodeMap, opField r.mask = 0xF := by decide

/-- Each opcode has one row. -/
theorem eq_of_opField_pattern_eq :
    ∀ r ∈ opcodeMap, ∀ r' ∈ opcodeMap, opField r.pattern = opField r'.pattern → r = r' := by decide

/-- A word that the row of its own opcode does not select is reserved. -/
theorem decode_reserved_of_not_selects {w : CmdWord} {r : OpcodeRow} (hr : r ∈ opcodeMap)
    (hop : opField w = opField r.pattern) (hn : r.selects w = false) :
    decode w = .reserved (reservedReason w) := by
  have hnone : selectRow w = none := by
    refine List.find?_eq_none.2 fun r' hr' hs => ?_
    have hop' := (OpcodeRow.fields_of_selects hs).1
    rw [opField_mask_of_mem_opcodeMap r' hr', show opField w &&& 0xF = opField w from BitVec.and_allOnes] at hop'
    rw [eq_of_opField_pattern_eq r' hr' r hr (hop'.symm.trans hop), hn] at hs
    cases hs
  simp only [decode, hnone]

/-- READ_REG's opcode with a non-zero `d` field (30_encoding.md R74). -/
theorem decode_readReg_nonzeroData {w : CmdWord} (hop : w.toNat / 4096 = 6) (hd : w.toNat % 256 ≠ 0) :
    decode w = .reserved (reservedReason w) := by
  refine decode_reserved_of_not_selects (r := ⟨.readReg, 0xF0FF, 0x6000⟩) (by decide) ?_ ?_
  · exact BitVec.eq_of_toNat_eq ((opField_toNat w).trans hop)
  · refine Bool.eq_false_iff.2 fun hs => hd ?_
    have hz : dField w &&& 0xFF = 0 := (OpcodeRow.fields_of_selects hs).2.2
    rw [show dField w &&& 0xFF = dField w from BitVec.and_allOnes] at hz
    rw [← dField_toNat, hz]
    rfl

end Sys2Proof

namespace Sys2Proof.Machine

/-! ### Accepted reserved words and READ_REG -/

/-- An accepted reserved word enters the fault of code 1 and writes nothing else (60_exceptions.md R191, R192). -/
theorem execWord_of_reserved {w : CmdWord} {r : Reserved} (s : State) (h : decode w = .reserved r) :
    execWord w s = .next { s with flt := true, fcode := 1, out := faultedOutputs .reservedEncoding } := by
  simp only [execWord, h]
  rfl

/-- READ_REG of a populated index writes the port record only (41_display_buffer.md R108). -/
theorem exec_readReg_of_regOf {idx : Nibble} {r : Reg} (s : State) (h : regOf idx = some r) :
    exec (.readReg idx) s = .next { s with out := completedOutputs (readReg s r) } := by
  simp only [exec, execReadReg, h]
  rfl

/-- READ_REG of an index beyond 0xC faults with code 1 (20_memory.md R55). -/
theorem exec_readReg_of_reserved_index {idx : Nibble} (s : State) (h : 0xC < idx.toNat) :
    exec (.readReg idx) s = .next { s with flt := true, fcode := 1, out := faultedOutputs .reservedEncoding } := by
  simp only [exec, execReadReg, regOf_eq_none.2 h]
  rfl

/-- TCTL reads as RUN, zero-extended (20_memory.md R55). -/
theorem readReg_tctl (s : State) : readReg s .tctl = if s.run then 0x01 else 0x00 := by
  simp only [readReg]
  cases s.run <;> rfl

/-- Settles O16: each populated index through the register it names, each reserved one through the range of the
index map; the word by its fields; a non-zero `d` field because READ_REG's row is the only one with op = 0x6. -/
theorem readRegReturnsIndexedRegister : Obligations.ReadRegReturnsIndexedRegister := by
  unfold Obligations.ReadRegReturnsIndexedRegister
  intro s returns faults
  have read {idx : Nibble} (r : Reg) (h : regOf idx = some r) : returns idx (readReg s r) :=
    exec_readReg_of_regOf s h
  have reserved {idx : Nibble} (h : 0xC < idx.toNat) : faults idx := exec_readReg_of_reserved_index s h
  refine ⟨⟨read (.dbuf 0) rfl, read (.dbuf 1) rfl, read (.dbuf 2) rfl, read (.dbuf 3) rfl⟩,
    ⟨read .light rfl, read .tcnt rfl, read (.hist 0) rfl, read (.hist 1) rfl⟩,
    ⟨read (.pcnt 0) rfl, read (.pcnt 1) rfl, read .segOut rfl⟩, ⟨read .digSel rfl, ?_⟩,
    ⟨reserved (by decide), reserved (by decide), reserved (by decide)⟩, fun idx => ?_, fun w hop hd => ?_⟩
  · exact readReg_tctl s ▸ read .tctl rfl
  · exact fields_toNat 0x6 idx 0
  · exact execWord_of_reserved s (decode_readReg_nonzeroData hop hd)

end Sys2Proof.Machine

end

/-! ## The opcode map, reserved words and return values

The rules of the decoder against the rows of the opcode map: a row selects a word exactly when it is the row of the
decoded command, and each row is a condition on the word's fields. Then what a cycle shows on `rsp`. -/

section

namespace Sys2Proof

/-! ### The decoder and the rows of the opcode map (30_encoding.md R73) -/

theorem OpcodeRow.selects_iff {r : OpcodeRow} {w : CmdWord} : r.selects w = true ↔ w &&& r.mask = r.pattern := by
  simp [OpcodeRow.selects]

/-- The rows do not overlap: they fix the whole opcode, and each opcode has one row. -/
theorem row_eq_of_selects {w : CmdWord} {r r' : OpcodeRow} (hr : r ∈ opcodeMap) (hr' : r' ∈ opcodeMap)
    (h : r.selects w = true) (h' : r'.selects w = true) : r = r' := by
  have opField_eq {q : OpcodeRow} (hq : q ∈ opcodeMap) (hs : q.selects w = true) : opField w = opField q.pattern := by
    have hop := (OpcodeRow.fields_of_selects hs).1
    rwa [opField_mask_of_mem_opcodeMap q hq, show opField w &&& 0xF = opField w from BitVec.and_allOnes] at hop
  exact eq_of_opField_pattern_eq r hr r' hr' ((opField_eq hr h).symm.trans (opField_eq hr' h'))

theorem selectRow_eq_some {w : CmdWord} {r : OpcodeRow} :
    selectRow w = some r ↔ r ∈ opcodeMap ∧ r.selects w = true := by
  have found {q : OpcodeRow} (h : selectRow w = some q) : q ∈ opcodeMap ∧ q.selects w = true :=
    ⟨List.mem_of_find?_eq_some h, List.find?_some (p := fun x : OpcodeRow => x.selects w) h⟩
  refine ⟨found, fun ⟨hr, hs⟩ => ?_⟩
  obtain ⟨q, hq⟩ := Option.isSome_iff_exists.1
    (List.find?_isSome (p := fun x : OpcodeRow => x.selects w).2 ⟨r, hr, hs⟩)
  obtain ⟨hqm, hqs⟩ := found hq
  rwa [← row_eq_of_selects hqm hr hqs hs]

/-- A word that a row selects decodes to that row's command, its operands assembled from the word. -/
theorem decode_of_matches {w : CmdWord} {r : OpcodeRow} (hr : r ∈ opcodeMap) (h : w &&& r.mask = r.pattern) :
    decode w = .command (operands r.opcode w) := by
  simp only [decode, selectRow_eq_some.2 ⟨hr, OpcodeRow.selects_iff.2 h⟩]

theorem operands_opcode (op : Opcode) (w : CmdWord) : (operands op w).opcode = op := by cases op <;> rfl

/-- Each opcode name has one row. -/
theorem eq_of_opcode_eq : ∀ r ∈ opcodeMap, ∀ r' ∈ opcodeMap, r.opcode = r'.opcode → r = r' := by decide

/-- A word that decodes to a command is selected by the command's row. -/
theorem matches_of_decode {w : CmdWord} {i : Instr} {r : OpcodeRow} (hr : r ∈ opcodeMap)
    (hop : i.opcode = r.opcode) (h : decode w = .command i) : w &&& r.mask = r.pattern := by
  unfold decode at h
  split at h
  · rename_i r' hsel
    obtain ⟨hr', hs⟩ := selectRow_eq_some.1 hsel
    cases h
    rw [operands_opcode] at hop
    exact eq_of_opcode_eq r' hr' r hr hop ▸ OpcodeRow.selects_iff.1 hs
  · cases h

/-- Exactly the words that no row selects are reserved. -/
theorem decode_reserved_iff {w : CmdWord} :
    (∃ x, decode w = .reserved x) ↔ ∀ r ∈ opcodeMap, w &&& r.mask ≠ r.pattern := by
  constructor
  · rintro ⟨x, hx⟩ r hr h
    rw [decode_of_matches hr h] at hx
    cases hx
  · intro h
    have hnone : selectRow w = none :=
      List.find?_eq_none.2 fun r hr hs => h r hr (OpcodeRow.selects_iff.1 hs)
    exact ⟨reservedReason w, by simp only [decode, hnone]⟩

/-- The words no row selects, the rows written out. -/
theorem decode_reserved_iff_rows {w : CmdWord} :
    (∃ x, decode w = .reserved x) ↔
      ¬ (w &&& 0xFFFF = 0x0000 ∨ w &&& 0xF000 = 0x1000 ∨ w &&& 0xFF00 = 0x2000 ∨ w &&& 0xF0FF = 0x3000 ∨
        w &&& 0xFF00 = 0x4000 ∨ w &&& 0xFFFE = 0x5000 ∨ w &&& 0xF0FF = 0x6000) := by
  simp only [decode_reserved_iff, opcodeMap, List.forall_mem_cons, List.not_mem_nil, false_imp_iff, implies_true,
    and_true, not_or, ne_eq]

/-- Settles O4: a command's row and a row's command, one row at a time; reserved words by the absence of a row; the
rows exclude each other because each has its own opcode and fixes all of it. -/
theorem opcodeMapSelectsCommands : Obligations.OpcodeMapSelectsCommands := by
  unfold Obligations.OpcodeMapSelectsCommands
  intro w
  refine ⟨⟨?_, ?_⟩, ⟨?_, ?_⟩, ⟨?_, ?_⟩, ⟨?_, ?_⟩, ⟨?_, ?_⟩, ⟨?_, ?_⟩, ⟨?_, ?_⟩, decode_reserved_iff_rows, ?_⟩
  · exact matches_of_decode (r := ⟨.nop, 0xFFFF, 0x0000⟩) (by decide) rfl
  · exact decode_of_matches (r := ⟨.nop, 0xFFFF, 0x0000⟩) (by decide)
  · exact fun ⟨_, _, _, h⟩ => matches_of_decode (r := ⟨.setDigit, 0xF000, 0x1000⟩) (by decide) rfl h
  · exact fun h => ⟨_, _, _, decode_of_matches (r := ⟨.setDigit, 0xF000, 0x1000⟩) (by decide) h⟩
  · exact fun ⟨_, h⟩ => matches_of_decode (r := ⟨.setLight, 0xFF00, 0x2000⟩) (by decide) rfl h
  · exact fun h => ⟨_, decode_of_matches (r := ⟨.setLight, 0xFF00, 0x2000⟩) (by decide) h⟩
  · exact fun ⟨_, h⟩ => matches_of_decode (r := ⟨.pollPress, 0xF0FF, 0x3000⟩) (by decide) rfl h
  · exact fun h => ⟨_, decode_of_matches (r := ⟨.pollPress, 0xF0FF, 0x3000⟩) (by decide) h⟩
  · exact fun ⟨_, h⟩ => matches_of_decode (r := ⟨.lookup, 0xFF00, 0x4000⟩) (by decide) rfl h
  · exact fun h => ⟨_, decode_of_matches (r := ⟨.lookup, 0xFF00, 0x4000⟩) (by decide) h⟩
  · exact fun ⟨_, h⟩ => matches_of_decode (r := ⟨.tickCtl, 0xFFFE, 0x5000⟩) (by decide) rfl h
  · exact fun h => ⟨_, decode_of_matches (r := ⟨.tickCtl, 0xFFFE, 0x5000⟩) (by decide) h⟩
  · exact fun ⟨_, h⟩ => matches_of_decode (r := ⟨.readReg, 0xF0FF, 0x6000⟩) (by decide) rfl h
  · exact fun h => ⟨_, decode_of_matches (r := ⟨.readReg, 0xF0FF, 0x6000⟩) (by decide) h⟩
  · exact fun r hr r' hr' h h' =>
      row_eq_of_selects hr hr' (OpcodeRow.selects_iff.2 h) (OpcodeRow.selects_iff.2 h')

/-! ### Rows as conditions on the fields of a word (30_encoding.md R71, R74) -/

theorem aField_toNat (w : CmdWord) : (aField w).toNat = w.toNat / 256 % 16 := by
  simp [aField, BitVec.extractLsb'_toNat, Nat.shiftRight_eq_div_pow]

/-- A word is its three fields. -/
theorem eq_of_fields_eq {v w : CmdWord} (hop : opField v = opField w) (ha : aField v = aField w)
    (hd : dField v = dField w) : v = w := by
  rw [← BitVec.toNat_inj, opField_toNat, opField_toNat] at hop
  rw [← BitVec.toNat_inj, aField_toNat, aField_toNat] at ha
  rw [← BitVec.toNat_inj, dField_toNat, dField_toNat] at hd
  rw [← BitVec.toNat_inj]
  omega

/-- A mask applies field by field. -/
theorem and_eq_iff_fields (w m p : CmdWord) :
    w &&& m = p ↔ opField w &&& opField m = opField p ∧ aField w &&& aField m = aField p ∧
      dField w &&& dField m = dField p := by
  refine ⟨fun h => by subst h; simp only [opField, aField, dField, BitVec.extractLsb'_and, and_self], ?_⟩
  rintro ⟨hop, ha, hd⟩
  apply eq_of_fields_eq
  · exact BitVec.extractLsb'_and.trans hop
  · exact BitVec.extractLsb'_and.trans ha
  · exact BitVec.extractLsb'_and.trans hd

/-- A field the mask covers is fixed. -/
theorem and_allOnes_eq_iff {n : Nat} (x p : BitVec n) : x &&& BitVec.allOnes n = p ↔ x.toNat = p.toNat := by
  rw [BitVec.and_allOnes, BitVec.toNat_inj]

/-- TICK_CTL's must-be-zero bits `d[7:1]`. -/
theorem and_FE_eq_zero_iff (d : Byte) : d &&& 0xFE = 0 ↔ d.toNat < 2 := by revert d; decide

/-- Each row's words by their fields `op`, `a` and `d`, one condition a field: `True` where the row leaves the field
free (30_encoding.md R73). -/
theorem rows_iff_fields (w : CmdWord) :
    let op := (opField w).toNat
    let a := (aField w).toNat
    let d := (dField w).toNat
    (w &&& 0xFFFF = 0x0000 ↔ op = 0 ∧ a = 0 ∧ d = 0) ∧
    (w &&& 0xF000 = 0x1000 ↔ op = 1 ∧ True ∧ True) ∧
    (w &&& 0xFF00 = 0x2000 ↔ op = 2 ∧ a = 0 ∧ True) ∧
    (w &&& 0xF0FF = 0x3000 ↔ op = 3 ∧ True ∧ d = 0) ∧
    (w &&& 0xFF00 = 0x4000 ↔ op = 4 ∧ a = 0 ∧ True) ∧
    (w &&& 0xFFFE = 0x5000 ↔ op = 5 ∧ a = 0 ∧ d < 2) ∧
    (w &&& 0xF0FF = 0x6000 ↔ op = 6 ∧ True ∧ d = 0) := by
  intro op a d
  have row {m p : CmdWord} {P Q R : Prop} (hop : opField w &&& opField m = opField p ↔ P)
      (ha : aField w &&& aField m = aField p ↔ Q) (hd : dField w &&& dField m = dField p ↔ R) :
      w &&& m = p ↔ P ∧ Q ∧ R := (and_eq_iff_fields w m p).trans (and_congr hop (and_congr ha hd))
  have fixed {n : Nat} (x p : BitVec n) := and_allOnes_eq_iff x p
  have free {n : Nat} (x : BitVec n) : x &&& 0#n = 0#n ↔ True := iff_true_intro BitVec.and_zero
  exact ⟨row (fixed _ 0) (fixed _ 0) (fixed _ 0), row (fixed _ 1) (free _) (free _),
    row (fixed _ 2) (fixed _ 0) (free _), row (fixed _ 3) (free _) (fixed _ 0),
    row (fixed _ 4) (fixed _ 0) (free _), row (fixed _ 5) (fixed _ 0) (and_FE_eq_zero_iff _),
    row (fixed _ 6) (free _) (fixed _ 0)⟩

/-- The reserved words by their fields (30_encoding.md R74). -/
theorem decode_reserved_iff_fields (w : CmdWord) :
    let op := w.toNat / 4096
    let a := w.toNat / 256 % 16
    let d := w.toNat % 256
    (∃ r, decode w = .reserved r) ↔
      (7 ≤ op ∨ (op = 0 ∧ (a ≠ 0 ∨ d ≠ 0)) ∨ ((op = 2 ∨ op = 4 ∨ op = 5) ∧ a ≠ 0) ∨
        ((op = 3 ∨ op = 6) ∧ d ≠ 0) ∨ (op = 5 ∧ 2 ≤ d)) := by
  intro op a d
  obtain ⟨nop, setDigit, setLight, pollPress, lookup, tickCtl, readReg⟩ := rows_iff_fields w
  simp only [decode_reserved_iff_rows, nop, setDigit, setLight, pollPress, lookup, tickCtl, readReg, opField_toNat,
    aField_toNat, dField_toNat, and_true, true_and]
  omega

/-- A word with op = 0x6 and a zero `d` field is READ_REG, whatever its index. -/
theorem decode_readReg {w : CmdWord} (hop : w.toNat / 4096 = 6) (hd : w.toNat % 256 = 0) :
    decode w = .command (.readReg (aField w)) := by
  obtain ⟨-, -, -, -, -, -, readReg⟩ := rows_iff_fields w
  rw [opField_toNat, dField_toNat] at readReg
  exact decode_of_matches (r := ⟨.readReg, 0xF0FF, 0x6000⟩) (by decide) (readReg.2 ⟨hop, trivial, hd⟩)

end Sys2Proof

namespace Sys2Proof.Machine

/-- Settles O5: the complement of the seven rows, field by field, is the list of R74; the frame is the one of an
accepted reserved word, and of READ_REG beyond the index map. -/
theorem reservedWordsFault : Obligations.ReservedWordsFault := by
  unfold Obligations.ReservedWordsFault
  intro w s op a d
  refine ⟨decode_reserved_iff_fields w, ?_⟩
  rintro (⟨r, hr⟩ | ⟨hop, hd, ha⟩)
  · exact execWord_of_reserved s hr
  · simp only [execWord, decode_readReg hop hd]
    exact exec_readReg_of_reserved_index s ((aField_toNat w).symm ▸ ha)

/-! ### What a cycle shows on `rsp` (30_encoding.md R75) -/

@[simp] theorem readReg_passInputs (s : State) (r : Reg) : readReg (passInputs s) r = readReg s r := by
  cases r <;> simp [readReg]

theorem markRefused_host_ne_completed (b : Bool) (s : State) : (markRefused b s).out.host ≠ .completed := by
  cases b <;> simp

/-- A cycle shows 0x00 and completes nothing, or it completes an accepted command and shows its return value. -/
theorem step_rsp_cases {s t : State} (h : step s = .next t) :
    (t.out.host ≠ .completed ∧ t.out.rsp = 0x00) ∨
    (∃ i s' rsp, decode (currentInputs s).cmd = .command i ∧ Writes (countdown (passInputs s)) i s' rsp ∧
      t.out = completedOutputs rsp) := by
  cases step_cases h with
  | reset _ ht => subst ht; exact .inl ⟨markRefused_host_ne_completed _ _, rfl⟩
  | tick _ _ _ ht => subst ht; exact .inl ⟨markRefused_host_ne_completed _ _, rfl⟩
  | quiet _ _ _ ht => subst ht; exact .inl ⟨markRefused_host_ne_completed _ _, rfl⟩
  | command _ _ _ _ ht =>
    rcases execWord_cases (currentInputs s).cmd (countdown (passInputs s)) with
      ⟨i, s', rsp, hd, -, hw, he⟩ | ⟨c, he, -⟩
    · cases he.symm.trans ht
      exact .inr ⟨i, s', rsp, hd, hw, rfl⟩
    · cases he.symm.trans ht
      exact .inl ⟨nofun, rfl⟩

/-- Settles O30: a completing command returns what its register operation says, and nothing that it reads is changed
by the countdown of its own cycle. -/
theorem returnValueOfACycle : Obligations.ReturnValueOfACycle := by
  unfold Obligations.ReturnValueOfACycle
  intro s t h
  rcases step_rsp_cases h with ⟨hhost, hrsp⟩ | ⟨i, s', rsp, hd, hw, hout⟩
  · exact ⟨fun hc => absurd hc hhost, fun _ => hrsp⟩
  · rw [hout]
    refine ⟨fun _ => ⟨i, hd, ?_⟩, fun hc => absurd rfl hc⟩
    cases hw with
    | lookup v hv => simpa [completedOutputs] using rom_of_eq s.cfg hv
    | readReg r hr => exact ⟨r, hr, by simp [completedOutputs]⟩
    | pollReleased k hk hh =>
      rw [countdown_hist, passInputs_hist] at hh
      refine ⟨k, hk, ?_⟩
      simp only [hh, false_or, ← classify_code, countdown_pcnt, passInputs_pcnt]
      rfl
    | pollHeld k hk hh =>
      rw [countdown_hist, passInputs_hist] at hh
      exact ⟨k, hk, (if_pos (.inl hh)).symm⟩
    | _ => rfl

end Sys2Proof.Machine

end

/-! ## LOOKUP

LOOKUP as one equation per side of its domain, and the build-time parameters along a trace: no cycle writes them, so
the table answers the same at both ends of any run. -/

section

namespace Sys2Proof.Machine

/-! ### LOOKUP as a function of the table (40_segment_lookup.md R95, R96) -/

theorem exec_lookup_of_eq {value : Byte} {v : Fin 20} (s : State) (h : value.toNat = v.val) :
    exec (.lookup value) s = .next { s with out := completedOutputs s.cfg.segRom[v] } := by
  simp only [exec, execLookup, rom_of_eq s.cfg h]
  rfl

theorem exec_lookup_of_outside_domain {value : Byte} (s : State) (h : 0x13 < value.toNat) :
    exec (.lookup value) s = .next { s with flt := true, fcode := 4, out := faultedOutputs .valueOutOfDomain } := by
  simp only [exec, execLookup, rom_eq_none.2 h]
  rfl

/-- DP_ONLY shows the decimal point alone in every legal table (40_segment_lookup.md R92 c). -/
theorem segRom_dpOnly {c : Params} (h : c.Legal) : c.segRom[(0x13 : Fin 20)] = 0x80 := by
  obtain ⟨-, -, hdp, -⟩ := h
  exact hdp

/-- LOOKUP's opcode with a non-zero `a` field (30_encoding.md R74). -/
theorem decode_lookup_nonzeroIndex {w : CmdWord} (hop : w.toNat / 4096 = 4) (ha : w.toNat / 256 % 16 ≠ 0) :
    ∃ r, decode w = .reserved r :=
  (decode_reserved_iff_fields w).2 (.inr (.inr (.inl ⟨.inr (.inl hop), ha⟩)))

/-- Settles O17: the two sides of the domain by LOOKUP's two equations, DP_ONLY as the entry a legal table fixes; the
word by its fields; a non-zero `a` field by the reserved words of R74. -/
theorem lookupReturnsTableEntry : Obligations.LookupReturnsTableEntry := by
  unfold Obligations.LookupReturnsTableEntry
  intro value s
  refine ⟨fun v hv => exec_lookup_of_eq s hv, exec_lookup_of_outside_domain s, fun hl => ?_, ?_, fun w hop ha => ?_⟩
  · rw [exec_lookup_of_eq (value := 0x13) (v := 0x13) s (by decide), segRom_dpOnly hl]
  · exact fields_toNat 0x4 0 value
  · obtain ⟨r, hr⟩ := decode_lookup_nonzeroIndex hop ha
    exact execWord_of_reserved s hr

/-! ### The build-time parameters along a trace (10_state.md R34) -/

@[simp] theorem tickCycle_cfg (swN : BitVec 2) (s : State) : (tickCycle swN s).cfg = s.cfg := rfl

theorem execWord_cfg {w : CmdWord} {s t : State} (h : execWord w s = .next t) : t.cfg = s.cfg := by
  rcases execWord_cases w s with ⟨i, s', rsp, -, -, hw, he⟩ | ⟨c, he, -⟩
  · obtain ⟨hcfg, -⟩ := hw.frame
    cases he.symm.trans h
    exact hcfg
  · cases he.symm.trans h
    rfl

/-- No cycle writes the build-time parameters, a reset cycle included. -/
theorem step_cfg {s t : State} (h : step s = .next t) : t.cfg = s.cfg := by
  cases step_cases h with
  | reset _ ht => simp [ht]
  | tick _ _ _ ht => simp [ht]
  | command _ _ _ _ ht => simpa using execWord_cfg ht
  | quiet _ _ _ ht => simp [ht]

theorem Trace.cfg_eq {n : Nat} {u : Nat → State} (h : Trace n u) : (u n).cfg = (u 0).cfg := by
  induction n with
  | zero => rfl
  | succ n ih =>
    calc (u (n + 1)).cfg = (u n).cfg := step_cfg (h n n.lt_succ_self)
      _ = (u 0).cfg := ih fun j hj => h j (Nat.lt_succ_of_lt hj)

/-- Settles O18: a value of the domain names a table entry, LOOKUP shows that entry, and the table is the same at
both ends of the trace. -/
theorem lookupNeverChangesItsAnswer : Obligations.LookupNeverChangesItsAnswer := by
  unfold Obligations.LookupNeverChangesItsAnswer
  intro n u value hu hvalue
  have lookup (s : State) := exec_lookup_of_eq (value := value) (v := ⟨value.toNat, by omega⟩) s rfl
  exact ⟨_, _, lookup (u 0), lookup (u n), rfl, by rw [hu.cfg_eq]⟩

end Sys2Proof.Machine

end

/-! ## The display buffer: NOP, SET_DIGIT, and what a slot keeps

SET_DIGIT as one equation per outcome of its two checks, and which events spare a slot of DBUF: a slot that every
event of a run spares reads at the end of the run as it did at its start. -/

section

namespace Sys2Proof

/-! ### The words of SET_DIGIT and of op = 0x0 (30_encoding.md R73, R74) -/

/-- SET_DIGIT's word as the fields `op`, `a` and `d` (30_encoding.md R72). -/
theorem encode_setDigit (pos : Nibble) (dp : Bool) (value : BitVec 7) :
    encode (.setDigit pos dp value) = 0x1#4 ++ pos ++ (BitVec.ofBool dp ++ value) := BitVec.append_assoc

/-- SET_DIGIT's `d` field: the decimal point in bit 7, the value below it. -/
theorem digitOperand_toNat (dp : Bool) (value : BitVec 7) :
    (BitVec.ofBool dp ++ value).toNat = (if dp then 0x80 else 0) + value.toNat := by
  rw [BitVec.toNat_append, ← Nat.shiftLeft_add_eq_or_of_lt value.isLt]
  cases dp <;> rfl

/-- A word with op = 0x0 other than NOP's (30_encoding.md R74). -/
theorem decode_nop_nonzero {w : CmdWord} (hop : w.toNat / 4096 = 0) (hw : w ≠ 0) : ∃ r, decode w = .reserved r := by
  have hne : w.toNat ≠ 0 := fun h => hw (BitVec.eq_of_toNat_eq h)
  exact (decode_reserved_iff_fields w).2 (.inr (.inl ⟨hop, by omega⟩))

end Sys2Proof

namespace Sys2Proof.Machine

/-! ### SET_DIGIT as a function of its operands (41_display_buffer.md R100) -/

theorem exec_setDigit_of_outside_position {pos : Nibble} (dp : Bool) (value : BitVec 7) (s : State)
    (h : 3 < pos.toNat) : exec (.setDigit pos dp value) s =
      .next { s with flt := true, fcode := 2, out := faultedOutputs .positionOutOfRange } := by
  simp only [exec, execSetDigit, slotOf_eq_none.2 h]
  rfl

theorem exec_setDigit_of_outside_domain {pos : Nibble} (dp : Bool) {value : BitVec 7} (s : State)
    (hpos : pos.toNat ≤ 3) (h : 0x13 < value.toNat) : exec (.setDigit pos dp value) s =
      .next { s with flt := true, fcode := 4, out := faultedOutputs .valueOutOfDomain } := by
  have hp : slotOf pos = some ⟨pos.toNat, by omega⟩ := slotOf_eq_some.2 rfl
  have hv : rom s.cfg (value.setWidth 8) = none :=
    rom_eq_none.2 (by rwa [BitVec.toNat_setWidth_of_le (by decide)])
  simp only [exec, execSetDigit, hp, hv]
  rfl

theorem exec_setDigit_of_eq {pos : Nibble} {p : Fin 4} (dp : Bool) {value : BitVec 7} {v : Fin 20} (s : State)
    (hp : pos.toNat = p.val) (hv : value.toNat = v.val) : exec (.setDigit pos dp value) s =
      .next (complete 0x00 (setSlot p (s.cfg.segRom[v] ||| dpMask dp) s)) := by
  have hv' : (value.setWidth 8).toNat = v.val := by rwa [BitVec.toNat_setWidth_of_le (by decide)]
  simp only [exec, execSetDigit, slotOf_eq_some.2 hp, rom_of_eq s.cfg hv']

/-- BLANK lights nothing in every legal table (40_segment_lookup.md R92 d). -/
theorem segRom_blank {c : Params} (h : c.Legal) : c.segRom[(0x10 : Fin 20)] = 0 := by
  obtain ⟨-, -, -, hblank⟩ := h
  exact hblank

/-- DP_ONLY, with the decimal point or without it, and BLANK with it are the same code. -/
theorem segRom_or_dpMask_of_dpOnly {c : Params} {v : Fin 20} {dp : Bool} (hl : c.Legal)
    (h : v = 0x13 ∨ (v = 0x10 ∧ dp = true)) : c.segRom[v] ||| dpMask dp = 0x80 := by
  rcases h with rfl | ⟨rfl, rfl⟩
  · rw [segRom_dpOnly hl]
    cases dp <;> rfl
  · rw [segRom_blank hl]
    rfl

theorem dpMask_eq_shiftLeft (dp : Bool) : dpMask dp = (BitVec.ofBool dp).setWidth 8 <<< 7 := by cases dp <;> rfl

theorem setSlot_dbuf_same (p : Fin 4) (code : Byte) (s : State) : (setSlot p code s).dbuf[p] = code := by
  rw [setSlot_dbuf, getElem_set_fin, if_pos rfl]

theorem setSlot_dbuf_of_ne {p q : Fin 4} (code : Byte) (s : State) (h : q ≠ p) :
    (setSlot p code s).dbuf[q] = s.dbuf[q] := by
  rw [setSlot_dbuf, getElem_set_fin, if_neg h.symm]

/-! ### Which events spare a slot (41_display_buffer.md R102) -/

/-- The event is neither a reset nor a SET_DIGIT to the position `pos`. -/
def Event.Spares (pos : Nibble) (e : Event) : Prop :=
  e ≠ .reset ∧ ∀ w dp value, e = .hostCmd w → decode w ≠ .command (.setDigit pos dp value)

/-- A completing command leaves each slot that it does not name. -/
theorem Writes.dbuf_getElem {s s' : State} {i : Instr} {rsp : Byte} {pos : Nibble} {p : Fin 4}
    (h : Writes s i s' rsp) (hp : pos.toNat = p.val) (hi : ∀ dp value, i ≠ .setDigit pos dp value) :
    s'.dbuf[p] = s.dbuf[p] := by
  cases h with
  | @setDigit pos' dp value q v hq hv =>
    refine setSlot_dbuf_of_ne _ s fun hpq => ?_
    obtain rfl : pos' = pos := BitVec.eq_of_toNat_eq (by rw [hq, hp, hpq])
    exact hi dp value rfl
  | _ => simp

theorem applyEvent_dbuf_getElem {e : Event} {pos : Nibble} {p : Fin 4} (s : State) (hp : pos.toNat = p.val)
    (he : e.Spares pos) : (applyEvent e s).dbuf[p] = s.dbuf[p] := by
  obtain ⟨hreset, hdigit⟩ := he
  rcases applyEvent_cases e s with ⟨h, -⟩ | ⟨w, -, h⟩ | ⟨w, i, s', rsp, hw, hd, -, hs, h⟩ | ⟨w, c, -, h, -⟩
  · exact absurd h hreset
  · rw [h, tick_dbuf]
  · rw [h, complete_dbuf]
    exact hs.dbuf_getElem hp fun dp value hi => hdigit w dp value hw (hi ▸ hd)
  · rw [h, takeFault_dbuf]

theorem runEvents_dbuf_getElem {es : List Event} {pos : Nibble} {p : Fin 4} (s : State) (hp : pos.toNat = p.val)
    (hes : ∀ e ∈ es, e.Spares pos) : (runEvents es s).dbuf[p] = s.dbuf[p] := by
  induction es generalizing s with
  | nil => rfl
  | cons e es ih =>
    obtain ⟨he, hes⟩ := List.forall_mem_cons.1 hes
    rw [runEvents_cons, ih _ hes, applyEvent_dbuf_getElem s hp he]

/-- Every slot has a position that names it, so a run that spares every position leaves DBUF. -/
theorem runEvents_dbuf {es : List Event} (s : State) (hes : ∀ pos, ∀ e ∈ es, e.Spares pos) :
    (runEvents es s).dbuf = s.dbuf :=
  Vector.ext fun q hq => runEvents_dbuf_getElem (pos := BitVec.ofNat 4 q) (p := ⟨q, hq⟩) s
    (Nat.mod_eq_of_lt (by omega)) (hes _)

theorem regOf_of_slot {pos : Nibble} {p : Fin 4} (h : pos.toNat = p.val) : regOf pos = some (.dbuf p) := by
  obtain rfl : pos = BitVec.ofNat 4 p.val := BitVec.eq_of_toNat_eq (h.trans (Nat.mod_eq_of_lt (by omega)).symm)
  revert p; decide

/-- Settles O13: SET_DIGIT stores the code, by induction over the run no event that spares the slot changes it, and
READ_REG returns the slot. -/
theorem setDigitReadsBackAfterAnyRun : Obligations.SetDigitReadsBackAfterAnyRun := by
  unfold Obligations.SetDigitReadsBackAfterAnyRun
  intro p v pos dp value s t u es hp hv hexec hes hu
  subst hu
  cases (exec_setDigit_of_eq dp s hp hv).symm.trans hexec
  refine ⟨?_, fun q hq => setSlot_dbuf_of_ne _ s hq, rfl, fun hno => ?_⟩
  · rw [exec_readReg_of_regOf _ (regOf_of_slot hp), readReg, runEvents_dbuf_getElem _ hp hes, complete_dbuf,
      setSlot_dbuf_same, dpMask_eq_shiftLeft]
  · exact runEvents_dbuf _ fun pos' e he =>
      ⟨(hes e he).1, fun w dp' value' hw => hno w pos' dp' value' (hw ▸ he)⟩

/-- Settles O11: NOP is completion alone; the only other words with op = 0x0 are reserved. -/
theorem nopChangesNothing : Obligations.NopChangesNothing := by
  unfold Obligations.NopChangesNothing
  intro s
  refine ⟨rfl, rfl, fun w hop hw => ?_⟩
  obtain ⟨r, hr⟩ := decode_nop_nonzero hop hw
  exact execWord_of_reserved s hr

/-- Settles O12: the word by its fields; the three outcomes by SET_DIGIT's three equations, its frame by the rules of
the one store. -/
theorem setDigitStoresWholeCode : Obligations.SetDigitStoresWholeCode := by
  unfold Obligations.SetDigitStoresWholeCode
  intro pos dp value s
  refine ⟨?_, exec_setDigit_of_outside_position dp value s, exec_setDigit_of_outside_domain dp s,
    fun p v hp hv => ⟨_, exec_setDigit_of_eq dp s hp hv, ?_⟩⟩
  · rw [encode_setDigit, fields_toNat, digitOperand_toNat, ← Nat.add_assoc]
    rfl
  · rw [complete_dbuf, setSlot_dbuf_same]
    exact ⟨rfl, fun q hq => setSlot_dbuf_of_ne _ s hq, rfl, segRom_or_dpMask_of_dpOnly⟩

end Sys2Proof.Machine

end

/-! ## The tick source and the command handshake

TICK_CTL as one equation, and the command port: one clock cycle executes the presented command when the port is ready,
and otherwise is the cycle it would be with nothing presented. -/

section

namespace Sys2Proof

/-- TICK_CTL's opcode with any of cmd[7:1] or cmd[11:8] set (42_tick_source.md R122). -/
theorem decode_tickCtl_reserved {w : CmdWord} (hlo : 0x5002 ≤ w.toNat) (hhi : w.toNat ≤ 0x5FFF) :
    ∃ r, decode w = .reserved r := by
  have hop : w.toNat / 4096 = 5 := by omega
  by_cases ha : w.toNat / 256 % 16 = 0
  · exact (decode_reserved_iff_fields w).2 (.inr (.inr (.inr (.inr ⟨hop, by omega⟩))))
  · exact (decode_reserved_iff_fields w).2 (.inr (.inr (.inl ⟨.inr (.inr hop), ha⟩)))

end Sys2Proof

namespace Sys2Proof.Machine

/-- TICK_CTL completes with RUN written, and PRESC reloaded on a start only (42_tick_source.md R120, R121). -/
theorem exec_tickCtl (run : Bool) (s : State) : exec (.tickCtl run) s = .next { s with
    run := run
    presc := if s.run = false ∧ run = true then s.cfg.tickPeriod - 1 else s.presc
    out := completedOutputs 0x00 } := by
  simp only [exec, execTickCtl, setRun]
  by_cases start : s.run = false ∧ run = true
  · rw [if_pos start, if_pos (by simpa using start)]
    rfl
  · rw [if_neg start, if_neg (by simpa using start)]
    rfl

/-- Settles O19: TICK_CTL by its equation, its word by evaluation at both operands, and the words past 0x5001 as
reserved ones. -/
theorem tickCtlWritesRun : Obligations.TickCtlWritesRun := by
  unfold Obligations.TickCtlWritesRun
  intro run s
  refine ⟨exec_tickCtl run s, by cases run <;> rfl, fun w hlo hhi => ?_⟩
  obtain ⟨r, hr⟩ := decode_tickCtl_reserved hlo hhi
  exact execWord_of_reserved s hr

/-! ### The command handshake of a cycle (42_tick_source.md R126) -/

/-- `cmd_ready` as R126 computes it from the state before the edge. -/
def portReady (s : State) : Bool := !(currentInputs s).rst && !s.flt && !tickDue s

/-- What the cycle does when it accepts no command; whether one is presented plays no part in it. -/
def idleCycle (s : State) : State :=
  if (currentInputs s).rst then applyReset (passInputs s)
  else if tickDue s then tickCycle (currentInputs s).swN (passInputs s)
  else quietCycle (countdown (passInputs s))

theorem portReady_iff {s : State} : portReady s = true ↔
    (currentInputs s).rst = false ∧ s.flt = false ∧ ¬ (s.run = true ∧ s.presc = 0) := by
  simp only [portReady, Bool.and_eq_true, Bool.not_eq_true', ← tickDue_iff, Bool.not_eq_true, and_assoc]

/-- A cycle executes the presented command if the port is ready, and is the idle cycle otherwise. -/
theorem step_eq (s : State) : step s =
    if portReady s && (currentInputs s).cmdValid then execWord (currentInputs s).cmd (countdown (passInputs s))
    else .next (markRefused (currentInputs s).cmdValid (idleCycle s)) := by
  simp only [step, clockCycle, portReady, idleCycle]
  by_cases hr : (currentInputs s).rst = true
  · simp [hr]
  · by_cases hd : tickDue s = true
    · simp [hr, hd]
    · simp [hr, hd, Bool.and_comm]

theorem idleCycle_out_cmdReady (s : State) : (idleCycle s).out.cmdReady = portReady s := by
  simp only [idleCycle, portReady]
  cases (currentInputs s).rst with
  | true => rfl
  | false =>
    cases tickDue s with
    | true => simp [tickCycle]
    | false => simp [CycleOutputs.quiet]

/-- An accepted word shows `cmd_ready` = 1 and completes or faults. -/
theorem execWord_handshake {w : CmdWord} {s t : State} (h : execWord w s = .next t) :
    t.out.cmdReady = true ∧ t.out.host ≠ .notAccepted ∧ t.out.host ≠ .idle := by
  rcases execWord_cases w s with ⟨i, s', rsp, -, -, -, he⟩ | ⟨c, he, -⟩ <;> cases he.symm.trans h
  · exact ⟨rfl, nofun, nofun⟩
  · exact ⟨rfl, nofun, nofun⟩

theorem step_accepted {s t : State} (h : step s = .next t) (hready : portReady s = true)
    (hv : (currentInputs s).cmdValid = true) :
    t.out.cmdReady = true ∧ t.out.host ≠ .notAccepted ∧ t.out.host ≠ .idle := by
  rw [step_eq, hready, hv] at h
  exact execWord_handshake h

theorem step_unaccepted {s : State} (hn : portReady s = false ∨ (currentInputs s).cmdValid = false) :
    step s = .next (markRefused (currentInputs s).cmdValid (idleCycle s)) := by
  rw [step_eq, if_neg]
  rcases hn with hn | hn <;> simp [hn]

theorem step_out_cmdReady {s t : State} (h : step s = .next t) : t.out.cmdReady = portReady s := by
  by_cases hn : portReady s = false ∨ (currentInputs s).cmdValid = false
  · cases (step_unaccepted hn).symm.trans h
    exact idleCycle_out_cmdReady s
  · simp only [not_or, Bool.not_eq_false] at hn
    obtain ⟨hready, hv⟩ := hn
    rw [(step_accepted h hready hv).1, hready]

/-- A presented command is refused exactly when the port is not ready. -/
theorem step_notAccepted_iff {s t : State} (h : step s = .next t) (hv : (currentInputs s).cmdValid = true) :
    t.out.host = .notAccepted ↔ portReady s = false := by
  cases hready : portReady s with
  | true => simpa using (step_accepted h hready hv).2.1
  | false =>
    cases (step_unaccepted (.inl hready)).symm.trans h
    simp [hv]

/-- Where the listed inputs cover the cycle, taking the presented command away leaves the idle cycle. -/
theorem step_withdrawn {s : State} {i : Inputs} {rest : List Inputs} (hi : s.inputs = i :: rest) :
    step { s with inputs := { i with cmdValid := false } :: rest } = .next (markRefused false (idleCycle s)) := by
  rw [step_unaccepted (.inr rfl)]
  simp only [idleCycle, currentInputs, passInputs, hi]
  rfl

/-- A tick reloads PRESC above 0, so no tick is due in the cycle after it (42_tick_source.md R124, R126). -/
theorem portReady_after_tick {s t : State} (h : step s = .next t) (hl : s.cfg.Legal) (hf : s.flt = false)
    (hr : (currentInputs s).rst = false) (hrun : s.run = true) (hp : s.presc = 0)
    (hr' : (currentInputs t).rst = false) : portReady t = true := by
  have hdue : tickDue s = true := (tickDue_iff s).2 ⟨hrun, hp⟩
  cases (step_unaccepted (.inl (by simp [portReady, hdue]))).symm.trans h
  obtain ⟨⟨hperiod, -⟩, -⟩ := hl
  refine portReady_iff.2 ⟨hr', ?_, fun ⟨_, hzero⟩ => ?_⟩
  · simpa [idleCycle, tickCycle, hr, hdue] using hf
  · have hreload : s.cfg.tickPeriod - 1 = 0 := by simpa [idleCycle, tickCycle, hr, hdue] using hzero
    omega

/-- Settles O28: `cmd_ready` and acceptance by the equation of a cycle; a refused command leaves the idle cycle, whose
definition does not read `cmd_valid`; after a tick the port is ready. -/
theorem cmdReadyAndAcceptance : Obligations.CmdReadyAndAcceptance := by
  unfold Obligations.CmdReadyAndAcceptance
  intro s t h
  have hready := step_out_cmdReady h
  refine ⟨hready ▸ portReady_iff, fun hv => ?_, fun hv => hready ▸ step_notAccepted_iff h hv,
    fun i rest hi hhost => ?_, fun u hl hf hr hrun hp hr' hv hu => ?_⟩
  · cases (step_unaccepted (.inr hv)).symm.trans h
    simp [hv]
  · have hn : portReady s = false ∨ (currentInputs s).cmdValid = false := by
      cases hv : (currentInputs s).cmdValid with
      | true => exact .inl ((step_notAccepted_iff h hv).1 hhost)
      | false => exact .inr rfl
    cases (step_unaccepted hn).symm.trans h
    exact step_withdrawn hi
  · exact step_accepted hu (portReady_after_tick h hl hf hr hrun hp hr') hv

end Sys2Proof.Machine

end

/-! ## The tick cycle

TICK as its two kinds of drive and its count per switch, over natural numbers (43_multiplexer_debounce.md R141 to R148),
and the cycle that executes it. -/

section

namespace Sys2Proof.Machine

/-! ### The drive of a tick (43_multiplexer_debounce.md R144, R152) -/

theorem tick_drive_of_lit (swN : BitVec 2) {s : State} (h : 247 < s.tcnt.toNat ∨ s.light.toNat < s.tcnt.toNat) :
    (tick swN s).segOut = s.dbuf[digitOf s.tcnt] ∧ (tick swN s).digSel = oneHot (digitOf s.tcnt) ∧
    (tick swN s).out.pins =
      [.deselectAllDigits, .setSegmentBits s.dbuf[digitOf s.tcnt], .selectDigit (digitOf s.tcnt)] := by
  have hlit : lit s.tcnt s.light = true := (lit_iff _ _).2 h
  simp [tickPins, hlit]

theorem tick_drive_of_not_lit (swN : BitVec 2) {s : State}
    (h : ¬ (247 < s.tcnt.toNat ∨ s.light.toNat < s.tcnt.toNat)) :
    (tick swN s).segOut = s.segOut ∧ (tick swN s).digSel = 0b0000 ∧
    (tick swN s).out.pins = [.deselectAllDigits] := by
  have hlit : lit s.tcnt s.light = false := by rwa [← lit_iff, Bool.not_eq_true] at h
  simp [tickPins, hlit]

/-! ### The count of a tick (43_multiplexer_debounce.md R146, R147) -/

/-- A boundary tick that finds HIST[i] = 0 counts up to the ceiling; any other tick keeps PCNT[i]. -/
theorem tick_pcnt_eq (swN : BitVec 2) (s : State) (i : Fin 2) : (tick swN s).pcnt[i] =
    if s.tcnt.toNat = 255 ∧ s.hist[i] = 0 then
      (if s.pcnt[i].toNat < s.cfg.pressSat.toNat then s.pcnt[i] + 1 else s.cfg.pressSat)
    else s.pcnt[i] := by
  have hlast : s.tcnt.toNat = 255 ↔ s.tcnt = 255 := by rw [← boundary_iff, boundary_iff_eq]
  rw [tick_pcnt_get]
  split
  · next h => exact accumulate_of_boundary (hlast.1 h.1) h.2
  · next h => exact accumulate_of_not fun h' => h ⟨hlast.2 h'.1, h'.2⟩

/-! ### The debounce shift of a tick (43_multiplexer_debounce.md R148) -/

theorem tick_hist_toNat (swN : BitVec 2) (s : State) (i : Fin 2) : ((tick swN s).hist[i]).toNat =
    (2 * s.hist[i].toNat + (if swN.getLsbD i.val then 1 else 0)) % 256 := by
  rw [tick_hist_get, shiftIn_toNat]

/-! ### The cycle of a tick (42_tick_source.md R124) -/

/-- A tick cycle is TICK, the reload of PRESC, and the clock moving on. -/
theorem tickCycle_passInputs (swN : BitVec 2) (s : State) :
    tickCycle swN (passInputs s) = { tick swN s with
      presc := s.cfg.tickPeriod - 1
      inputs := s.inputs.tail
      drawn := if s.inputs = [] then s.drawn + 1 else s.drawn } := by
  rcases s with ⟨_, _, _, _, _, _, _, _, _, _, _, _, _ | ⟨_, _⟩, _, _⟩
  · rfl
  · rfl

/-- The step of a cycle with a due tick, whatever FLT is; a presented command is not accepted. -/
theorem step_of_tick {s : State} (hr : (currentInputs s).rst = false) (hrun : s.run = true) (hp : s.presc = 0) :
    step s = .next (markRefused (currentInputs s).cmdValid { tick (currentInputs s).swN s with
      presc := s.cfg.tickPeriod - 1
      inputs := s.inputs.tail
      drawn := if s.inputs = [] then s.drawn + 1 else s.drawn }) := by
  have hdue : tickDue s = true := (tickDue_iff s).2 ⟨hrun, hp⟩
  have hidle : idleCycle s = tickCycle (currentInputs s).swN (passInputs s) := by simp [idleCycle, hr, hdue]
  rw [step_unaccepted (.inl (by simp [portReady, hdue])), hidle, tickCycle_passInputs]

/-- Settles O31: a tick cycle leaves every register but PRESC as TICK does, so TCNT, SEG_OUT, DIG_SEL, PCNT and HIST
are those of its increment, its drive, its count and its shift, and the rest is its frame. -/
theorem tickCycleResult : Obligations.TickCycleResult := by
  unfold Obligations.TickCycleResult
  intro s hr hrun hp
  refine ⟨_, step_of_tick hr hrun hp, ⟨?tcnt, ?lit, ?unlit, ?pcnt, ?hist⟩, ?frame⟩
  case tcnt => exact nextTick_toNat s.tcnt
  case lit => exact tick_drive_of_lit (currentInputs s).swN
  case unlit => exact tick_drive_of_not_lit (currentInputs s).swN
  case pcnt => exact tick_pcnt_eq (currentInputs s).swN s
  case hist => exact tick_hist_toNat (currentInputs s).swN s
  case frame => simp

end Sys2Proof.Machine

end

/-! ## The press classifier

POLL_PRESS as one equation per outcome of its switch check and its history check, and what the clear of one press
counter writes. -/

section

namespace Sys2Proof

/-- POLL_PRESS's opcode with a non-zero `d` field (30_encoding.md R74). -/
theorem decode_pollPress_nonzeroData {w : CmdWord} (hop : w.toNat / 4096 = 3) (hd : w.toNat % 256 ≠ 0) :
    ∃ r, decode w = .reserved r :=
  (decode_reserved_iff_fields w).2 (.inr (.inr (.inr (.inl ⟨.inl hop, hd⟩))))

end Sys2Proof

namespace Sys2Proof.Machine

/-! ### POLL_PRESS as a function of its switch and the history (44_press_classifier.md R170) -/

theorem exec_pollPress_of_released {sw : Nibble} {i : Fin 2} {s : State} (hi : sw.toNat = i.val)
    (hh : s.hist[i] ≠ 0) :
    exec (.pollPress sw) s = .next (complete (classify s.pcnt[i]).code (clearPress i s)) := by
  rw [exec_pollPress s hi, if_pos hh]

theorem exec_pollPress_of_held {sw : Nibble} {i : Fin 2} {s : State} (hi : sw.toNat = i.val)
    (hh : s.hist[i] = 0) : exec (.pollPress sw) s = .next { s with out := completedOutputs 0x00 } := by
  rw [exec_pollPress s hi, if_neg (not_not.2 hh)]
  rfl

theorem exec_pollPress_of_outside {sw : Nibble} (s : State) (h : 1 < sw.toNat) : exec (.pollPress sw) s =
    .next { s with flt := true, fcode := 3, out := faultedOutputs .switchIdOutOfRange } := by
  simp only [exec, execPollPress, switchOf_eq_none.2 h]
  rfl

theorem clearPress_pcnt_same (i : Fin 2) (s : State) : (clearPress i s).pcnt[i] = 0x00 := by
  rw [clearPress_pcnt, getElem_set_fin, if_pos rfl]

theorem clearPress_pcnt_of_ne {i k : Fin 2} (s : State) (h : k ≠ i) : (clearPress i s).pcnt[k] = s.pcnt[k] := by
  rw [clearPress_pcnt, getElem_set_fin, if_neg h.symm]

/-- Settles O21: the outcomes by POLL_PRESS's three equations, the code by the thresholds of R171 and the frame by the
rules of the one clear; the word by its fields; a non-zero `d` field by the reserved words of R74. -/
theorem pollPressClassifiesAndClears : Obligations.PollPressClassifiesAndClears := by
  unfold Obligations.PollPressClassifiesAndClears
  intro sw s
  refine ⟨fun i hi hh => ⟨_, exec_pollPress_of_released hi hh, ?cleared, ?others, ?frame⟩,
    fun i hi hh => exec_pollPress_of_held hi hh, exec_pollPress_of_outside s, ?word, fun w hop hd => ?reserved⟩
  case cleared => exact clearPress_pcnt_same i s
  case others => exact fun k hk => clearPress_pcnt_of_ne s hk
  case frame =>
    rw [classify_code]
    rfl
  case word => exact fields_toNat 0x3 sw 0
  case reserved =>
    obtain ⟨r, hr⟩ := decode_pollPress_nonzeroData hop hd
    exact execWord_of_reserved s hr

end Sys2Proof.Machine

end

/-! ## Faults

The state after a cycle whose command faults (60_exceptions.md R191, R194): the fault entry on the state the countdown
leaves. -/

section

namespace Sys2Proof.Machine

theorem markRefused_host_ne_faulted (b : Bool) (c : Fault) (s : State) :
    (markRefused b s).out.host ≠ .faulted c := by
  cases b <;> simp

/-- An accepted word that faults does nothing but enter the fault it shows. -/
theorem execWord_eq_takeFault {w : CmdWord} {s t : State} {c : Fault} (h : execWord w s = .next t)
    (hc : t.out.host = .faulted c) : t = takeFault c s := by
  rcases execWord_cases w s with ⟨i, s', rsp, -, -, -, he⟩ | ⟨c', he, -⟩ <;> cases he.symm.trans h
  · cases hc
  · cases hc
    rfl

/-- A cycle faults only by accepting a command, so FLT was 0; it is the countdown and the entry into the fault. -/
theorem step_eq_takeFault {s t : State} {c : Fault} (h : step s = .next t) (hc : t.out.host = .faulted c) :
    s.flt = false ∧ t = takeFault c (countdown (passInputs s)) := by
  cases step_cases h with
  | command _ _ _ hf ht => exact ⟨hf, execWord_eq_takeFault ht hc⟩
  | reset _ ht => exact absurd (ht ▸ hc) (markRefused_host_ne_faulted _ _ _)
  | tick _ _ _ ht => exact absurd (ht ▸ hc) (markRefused_host_ne_faulted _ _ _)
  | quiet _ _ _ ht => exact absurd (ht ▸ hc) (markRefused_host_ne_faulted _ _ _)

/-- Settles O35: the fault entry writes FLT, FCODE and the port record, on a state that differs from the one before
the edge in the countdown and the input stream only. -/
theorem faultRecordsOnlyItsCause : Obligations.FaultRecordsOnlyItsCause := by
  unfold Obligations.FaultRecordsOnlyItsCause
  intro s t c h hc
  obtain ⟨hf, rfl⟩ := step_eq_takeFault h hc
  rw [countdown_passInputs]
  exact ⟨hf, rfl⟩

end Sys2Proof.Machine

end

/-! ## Encoding and decoding

The encoder against the decoder: an encoded word is its three fields, its row selects it, and the operands assembled
from those fields are the command's own; and a word a row selects has no bit outside that row's operands. -/

section

namespace Sys2Proof

/-! ### The fields of a word laid out from its parts (30_encoding.md R71) -/

@[simp] theorem aField_append (op a : Nibble) (d : Byte) : aField (op ++ a ++ d) = a :=
  (BitVec.extractLsb'_append_eq_of_le (by decide)).trans BitVec.extractLsb'_append_eq_right

@[simp] theorem dField_append (op a : Nibble) (d : Byte) : dField (op ++ a ++ d) = d :=
  BitVec.extractLsb'_append_eq_right

/-- A one-bit part is its bit. -/
theorem extractLsb'_one (w : CmdWord) (k : Nat) : w.extractLsb' k 1 = BitVec.ofBool (w.getLsbD k) := by
  apply BitVec.eq_of_getLsbD_eq
  intro j hj
  obtain rfl : j = 0 := by omega
  simp

/-- SET_DIGIT's `d` field is the decimal point and the value (30_encoding.md R72). -/
theorem dField_eq_digitOperand (w : CmdWord) : dField w = BitVec.ofBool (w.getLsbD 7) ++ w.extractLsb' 0 7 := by
  rw [← extractLsb'_one]
  exact (BitVec.extractLsb'_append_extractLsb'_eq_extractLsb' (start₁ := 0) (len₁ := 7) (len₂ := 1) rfl).symm

/-! ### Decoding an encoded word -/

/-- Every command's word lies in the row of its mnemonic. -/
theorem rowMatch (i : Instr) : Laws.RowMatch.Statement i := by
  cases i with
  | nop => exact Laws.RowMatch.nop
  | setDigit pos dp value => exact Laws.RowMatch.setDigit pos dp value
  | setLight light => exact Laws.RowMatch.setLight light
  | pollPress sw => exact Laws.RowMatch.pollPress sw
  | lookup value => exact Laws.RowMatch.lookup value
  | tickCtl run => exact Laws.RowMatch.tickCtl run
  | readReg idx => exact Laws.RowMatch.readReg idx

/-- The operands of SET_DIGIT's word (30_encoding.md R72). -/
theorem operands_encode_setDigit (pos : Nibble) (dp : Bool) (value : BitVec 7) :
    operands .setDigit (encode (.setDigit pos dp value)) = .setDigit pos dp value := by
  have ha : aField (encode (.setDigit pos dp value)) = pos := by rw [encode_setDigit, aField_append]
  have hv : (encode (.setDigit pos dp value)).extractLsb' 0 7 = value := BitVec.extractLsb'_append_eq_right
  have hdp : (encode (.setDigit pos dp value)).getLsbD 7 = dp := by
    rw [encode, BitVec.getLsbD_append, BitVec.getLsbD_append]
    simp
  simp only [operands, ha, hv, hdp]

/-- Operand assembly inverts operand layout (30_encoding.md R72). -/
theorem operands_encode (i : Instr) : operands i.opcode (encode i) = i := by
  cases i with
  | nop => rfl
  | setDigit pos dp value => exact operands_encode_setDigit pos dp value
  | setLight light => exact congrArg Instr.setLight (dField_append 0x2 0 light)
  | pollPress sw => exact congrArg Instr.pollPress (aField_append 0x3 sw 0)
  | lookup value => exact congrArg Instr.lookup (dField_append 0x4 0 value)
  | tickCtl run => cases run <;> rfl
  | readReg idx => exact congrArg Instr.readReg (aField_append 0x6 idx 0)

theorem decode_encode (i : Instr) : decode (encode i) = .command i := by
  obtain ⟨r, hr, hop, hs⟩ := rowMatch i
  rw [decode_of_matches hr (OpcodeRow.selects_iff.1 hs), hop, operands_encode]

/-- Settles O2: the command's own row selects its word, and the operands assembled from the word's fields are the
command's. -/
theorem decodeInvertsEncode : Obligations.DecodeInvertsEncode := by
  unfold Obligations.DecodeInvertsEncode
  exact decode_encode

/-! ### Encoding a decoded word -/

/-- A word that decodes to a command is selected by a row, and its command is assembled from that row's operands. -/
theorem exists_row_of_decode {w : CmdWord} {i : Instr} (h : decode w = .command i) :
    ∃ r ∈ opcodeMap, w &&& r.mask = r.pattern ∧ i = operands r.opcode w := by
  unfold decode at h
  split at h
  · next r hsel =>
    obtain ⟨hr, hs⟩ := selectRow_eq_some.1 hsel
    cases h
    exact ⟨r, hr, OpcodeRow.selects_iff.1 hs, rfl⟩
  · cases h

/-- A word is determined by the values of its fields. -/
theorem append_fields_eq {op a : Nibble} {d : Byte} {w : CmdWord} (hop : (opField w).toNat = op.toNat)
    (ha : (aField w).toNat = a.toNat) (hd : (dField w).toNat = d.toNat) : op ++ a ++ d = w := by
  rw [opField_toNat] at hop
  rw [aField_toNat] at ha
  rw [dField_toNat] at hd
  apply BitVec.eq_of_toNat_eq
  rw [fields_toNat]
  omega

/-- TICK_CTL's `d` field, where its must-be-zero bits are 0, is its one operand bit. -/
theorem dField_of_lt_two {w : CmdWord} (h : (dField w).toNat < 2) :
    dField w = 0#7 ++ BitVec.ofBool (w.getLsbD 0) := by
  have hbit : w.getLsbD 0 = (dField w).getLsbD 0 := by simp [dField]
  have cases_of_lt_two : ∀ d : Byte, d.toNat < 2 → d = 0#7 ++ BitVec.ofBool (d.getLsbD 0) := by decide
  rw [hbit]
  exact cases_of_lt_two _ h

/-- A word that a row selects has no bit outside that row's fixed bits and operands. -/
theorem encode_operands {w : CmdWord} {r : OpcodeRow} (hr : r ∈ opcodeMap) (h : w &&& r.mask = r.pattern) :
    encode (operands r.opcode w) = w := by
  obtain ⟨nop, setDigit, setLight, pollPress, lookup, tickCtl, readReg⟩ := rows_iff_fields w
  simp only [opcodeMap, List.mem_cons, List.not_mem_nil, or_false] at hr
  obtain rfl | rfl | rfl | rfl | rfl | rfl | rfl := hr
  · obtain ⟨hop, ha, hd⟩ := nop.1 h
    exact append_fields_eq (op := 0x0) (a := 0) (d := 0) hop ha hd
  · obtain ⟨hop, -, -⟩ := setDigit.1 h
    exact (encode_setDigit _ _ _).trans
      (append_fields_eq (op := 0x1) hop rfl (congrArg BitVec.toNat (dField_eq_digitOperand w)))
  · obtain ⟨hop, ha, -⟩ := setLight.1 h
    exact append_fields_eq (op := 0x2) (a := 0) hop ha rfl
  · obtain ⟨hop, -, hd⟩ := pollPress.1 h
    exact append_fields_eq (op := 0x3) (d := 0) hop rfl hd
  · obtain ⟨hop, ha, -⟩ := lookup.1 h
    exact append_fields_eq (op := 0x4) (a := 0) hop ha rfl
  · obtain ⟨hop, ha, hd⟩ := tickCtl.1 h
    exact (BitVec.append_assoc (x₁ := 0x5#4 ++ 0#4)).trans
      (append_fields_eq (op := 0x5) (a := 0) hop ha (congrArg BitVec.toNat (dField_of_lt_two hd)))
  · obtain ⟨hop, -, hd⟩ := readReg.1 h
    exact append_fields_eq (op := 0x6) (d := 0) hop rfl hd

/-- Settles O3: the word's row fixes every bit that is no operand, and the operands are laid out where they were
read. -/
theorem encodeInvertsDecode : Obligations.EncodeInvertsDecode := by
  unfold Obligations.EncodeInvertsDecode
  intro w i h
  obtain ⟨r, hr, hm, rfl⟩ := exists_row_of_decode h
  exact encode_operands hr hm

/-- Settles O1: ten words through the rows of the opcode map, by evaluation. -/
theorem decodesWordsOfTheOpcodeMap : Obligations.DecodesWordsOfTheOpcodeMap := by
  unfold Obligations.DecodesWordsOfTheOpcodeMap
  decide

end Sys2Proof

end

/-! ## What each command writes, repeats and checks

Which register a completing command can change, read off its register operation; a command repeated on its own result;
and the fault code as the first failing check. -/

section

namespace Sys2Proof.Machine

/-! ### Which command can have changed a register (10_state.md R37) -/

section

variable {s s' : State} {i : Instr} {rsp : Byte}

theorem Writes.setDigit_of_dbuf_ne {p : Fin 4} (h : Writes s i s' rsp) (hne : s'.dbuf[p] ≠ s.dbuf[p]) :
    ∃ pos dp value, i = .setDigit pos dp value ∧ pos.toNat = p.val := by
  cases h with
  | @setDigit pos dp value q v hq hv =>
    have hpq : p = q := by_contra fun hpq => hne (setSlot_dbuf_of_ne _ s hpq)
    exact ⟨pos, dp, value, rfl, hpq ▸ hq⟩
  | _ => simp at hne

theorem Writes.setLight_of_light_ne (h : Writes s i s' rsp) (hne : s'.light ≠ s.light) :
    i = .setLight s'.light := by
  cases h with
  | setLight light => rfl
  | _ => simp at hne

theorem Writes.pollPress_of_pcnt_ne {k : Fin 2} (h : Writes s i s' rsp) (hne : s'.pcnt[k] ≠ s.pcnt[k]) :
    s'.pcnt[k] = 0 ∧ s.hist[k] ≠ 0 ∧ ∃ sw, i = .pollPress sw ∧ sw.toNat = k.val := by
  cases h with
  | @pollReleased sw j hj hh =>
    obtain rfl : k = j := by_contra fun hkj => hne (clearPress_pcnt_of_ne s hkj)
    exact ⟨clearPress_pcnt_same k s, hh, sw, rfl, hj⟩
  | _ => simp at hne

theorem Writes.tickCtl_of_run_ne (h : Writes s i s' rsp) (hne : s'.run ≠ s.run) : i = .tickCtl s'.run := by
  cases h with
  | tickCtl run => rw [setRun_run]
  | _ => simp at hne

theorem Writes.start_of_presc_ne (h : Writes s i s' rsp) (hne : s'.presc ≠ s.presc) :
    i = .tickCtl true ∧ s.run = false := by
  cases h with
  | tickCtl run =>
    by_cases start : (!s.run && run) = true
    · obtain ⟨hrun, rfl⟩ : s.run = false ∧ run = true := by simpa using start
      exact ⟨rfl, hrun⟩
    · exact absurd (by rw [setRun_presc, if_neg start]) hne
  | _ => simp at hne

end

/-- Settles O23: a completing command by its register operation, one register at a time; a faulting one writes the
fault latch only. -/
theorem commandsWriteOnlyTheirRegisters : Obligations.CommandsWriteOnlyTheirRegisters := by
  unfold Obligations.CommandsWriteOnlyTheirRegisters
  intro i s t h
  rcases exec_cases i s with ⟨-, s', rsp, hw, he⟩ | ⟨hwf, he⟩ <;> cases he.symm.trans h
  · obtain ⟨hcfg, htcnt, hhist, hseg, hdig, hflt, hfcode, hinputs, hdrawn⟩ := hw.frame
    exact ⟨hcfg, hinputs, hdrawn, htcnt, hhist, hseg, hdig, fun _ => hw.setDigit_of_dbuf_ne,
      hw.setLight_of_light_ne, fun _ => hw.pollPress_of_pcnt_ne, hw.tickCtl_of_run_ne, hw.start_of_presc_ne,
      fun hne => by simp [hflt, hfcode] at hne, rfl, rfl⟩
  · simp [hwf, faultedOutputs]

/-! ### The range checks (60_exceptions.md R192, R195) -/

theorem faultCode_failingCheck (i : Instr) : faultCode (failingCheck i) = match i with
    | .setDigit pos _ _ => if 3 < pos.toNat then 2 else 4
    | .pollPress _ => 3
    | .lookup _ => 4
    | _ => 1 := by
  cases i with
  | setDigit pos dp value =>
    simp only [failingCheck]
    split <;> rfl
  | _ => rfl

/-- Settles O24: the two ways of a command, and the code of its first failing check. -/
theorem rangeChecksDecideFaults : Obligations.RangeChecksDecideFaults := by
  unfold Obligations.RangeChecksDecideFaults
  intro i s
  rcases exec_cases i s with ⟨hwf, s', rsp, hw, he⟩ | ⟨hwf, he⟩
  · obtain ⟨-, -, -, -, -, hflt, hfcode, -, -⟩ := hw.frame
    exact ⟨fun _ => ⟨_, he, rfl, hflt, hfcode⟩, fun hn => by simp [hwf] at hn⟩
  · exact ⟨fun hy => by simp [hwf] at hy,
      fun _ => ⟨failingCheck i, _, he, rfl, (faultCode_failingCheck i).trans (by cases i <;> rfl)⟩⟩

/-! ### A command repeated at once (20_memory.md R54) -/

/-- TICK_CTL with RUN at its operand already writes nothing: it is no start. -/
theorem exec_tickCtl_of_run_eq {run : Bool} {s : State} (h : s.run = run) :
    exec (.tickCtl run) s = .next (complete 0x00 s) := by
  subst h
  rw [exec_tickCtl, if_neg (by simp)]
  rfl

/-- A completing command other than POLL_PRESS, on its own result, performs the same write and returns the same. -/
theorem Writes.exec_again {s s' : State} {i : Instr} {rsp : Byte} (h : Writes s i s' rsp)
    (hi : ∀ sw, i ≠ .pollPress sw) : exec i (complete rsp s') = .next (complete rsp s') := by
  cases h with
  | nop => rfl
  | setDigit p v hp hv =>
    rw [exec_setDigit_of_eq _ _ hp hv]
    simp [complete, setSlot]
  | setLight light => rfl
  | pollReleased j hj hh => exact absurd rfl (hi _)
  | pollHeld j hj hh => exact absurd rfl (hi _)
  | lookup v hv => exact exec_lookup_of_eq _ hv
  | tickCtl run => exact exec_tickCtl_of_run_eq (s := complete 0x00 (setRun run s)) (setRun_run s run)
  | readReg r hr =>
    rw [exec_readReg_of_regOf _ hr, readReg_complete]
    rfl

/-- A faulting command faults again on its own result, with the same cause. -/
theorem exec_takeFault_again {i : Instr} (s : State) (h : i.wellFormed = false) :
    exec i (takeFault (failingCheck i) s) = .next (takeFault (failingCheck i) s) := by
  rcases exec_cases i (takeFault (failingCheck i) s) with ⟨hwf, -⟩ | ⟨-, he⟩
  · simp [h] at hwf
  · exact he

theorem clearPress_again (i : Fin 2) (rsp rsp' : Byte) (s : State) :
    complete rsp (clearPress i (complete rsp' (clearPress i s))) = complete rsp (clearPress i s) := by
  simp [complete, clearPress]

/-- After a poll of a released switch its history is still not 0 and its counter is 0. -/
theorem exec_pollPress_again {sw : Nibble} {s t : State} (hsw : sw.toNat ≤ 1) (h : exec (.pollPress sw) s = .next t) :
    exec (.pollPress sw) t = .next { t with out := completedOutputs 0x00 } := by
  have hi : sw.toNat = (⟨sw.toNat, by omega⟩ : Fin 2).val := rfl
  generalize (⟨sw.toNat, _⟩ : Fin 2) = i at hi
  by_cases hh : s.hist[i] = 0
  · cases (exec_pollPress_of_held hi hh).symm.trans h
    exact exec_pollPress_of_held hi hh
  · cases (exec_pollPress_of_released hi hh).symm.trans h
    have released : (complete (classify s.pcnt[i]).code (clearPress i s)).hist[i] ≠ 0 := hh
    rw [exec_pollPress_of_released hi released, complete_pcnt, clearPress_pcnt_same]
    rw [clearPress_again]
    rfl

/-- Settles O22: each completing command by its register operation repeated, a faulting one by the same fault, and
POLL_PRESS by what it leaves of its own switch. -/
theorem repeatedCommandsAreIdempotent : Obligations.RepeatedCommandsAreIdempotent := by
  unfold Obligations.RepeatedCommandsAreIdempotent
  refine ⟨fun i s t hi h => ?_, fun sw s t => exec_pollPress_again⟩
  rcases exec_cases i s with ⟨-, s', rsp, hw, he⟩ | ⟨hwf, he⟩ <;> cases he.symm.trans h
  · exact hw.exec_again hi
  · exact exec_takeFault_again s hwf

/-! ### The decimal-point bit of a slot (41_display_buffer.md R103) -/

theorem getLsbD_or_dpMask (code : Byte) (dp : Bool) :
    (code ||| dpMask dp).getLsbD 7 = (code.getLsbD 7 || dp) := by
  rw [BitVec.getLsbD_or]
  cases dp <;> rfl

/-- Settles O14: a legal table leaves the decimal-point bit clear up to 0x12, and has it set at 0x13. -/
theorem decimalPointBitOfStoredSlot : Obligations.DecimalPointBitOfStoredSlot := by
  unfold Obligations.DecimalPointBitOfStoredSlot
  intro p pos dp value s hl hp hv
  obtain ⟨v, hv⟩ : ∃ v : Fin 20, value.toNat = v.val := ⟨⟨value.toNat, by omega⟩, rfl⟩
  refine ⟨_, exec_setDigit_of_eq dp s hp hv, ?_⟩
  rw [complete_dbuf, setSlot_dbuf_same]
  refine ⟨fun hle => ?_, fun heq => ?_⟩
  · obtain ⟨-, clear, -, -⟩ := hl
    rw [getLsbD_or_dpMask, clear v (hv ▸ hle), Bool.false_or]
  · obtain rfl : v = 0x13 := Fin.ext (hv.symm.trans heq)
    rw [segRom_or_dpMask_of_dpOnly hl (.inl rfl)]
    rfl

/-! ### SET_LIGHT (41_display_buffer.md R104) -/

/-- Settles O15: SET_LIGHT by its one store, its word by its fields, and a non-zero `a` field by the reserved words of
R74. -/
theorem setLightStoresOperand : Obligations.SetLightStoresOperand := by
  unfold Obligations.SetLightStoresOperand
  intro light s
  refine ⟨fields_toNat 0x2 0 light, rfl, fun w hop ha => ?_⟩
  obtain ⟨r, hr⟩ := (decode_reserved_iff_fields w).2 (.inr (.inr (.inl ⟨.inl hop, ha⟩)))
  exact execWord_of_reserved s hr

/-! ### POLL_PRESS and its switch (44_press_classifier.md R174, R179) -/

/-- Settles O25: both polls take the same branch, on the same history and the same counter. -/
theorem pollPressSwitchesIndependent : Obligations.PollPressSwitchesIndependent := by
  unfold Obligations.PollPressSwitchesIndependent
  intro i k sw s s' t t' hi hik hhist hpcnt h h'
  by_cases hh : s.hist[i] = 0
  · cases (exec_pollPress_of_held hi hh).symm.trans h
    cases (exec_pollPress_of_held hi (hhist ▸ hh)).symm.trans h'
    exact ⟨rfl, hpcnt, rfl, rfl⟩
  · cases (exec_pollPress_of_released hi hh).symm.trans h
    cases (exec_pollPress_of_released hi (hhist ▸ hh)).symm.trans h'
    exact ⟨by rw [hpcnt]; rfl, by simp only [complete_pcnt, clearPress_pcnt_same], clearPress_pcnt_of_ne s hik.symm,
      rfl⟩

/-- Settles O26: a held switch stays PRESSING and returns NONE; a released one ends with its counter 0, which is IDLE,
and a report needs a counter that was not 0. -/
theorem pollPressMovesReportPendingToIdle : Obligations.PollPressMovesReportPendingToIdle := by
  unfold Obligations.PollPressMovesReportPendingToIdle
  intro i sw s hi
  by_cases hh : s.hist[i] = 0
  · exact ⟨_, exec_pollPress_of_held hi hh, by simp [pressState, hh], fun hr => absurd rfl hr⟩
  · refine ⟨_, exec_pollPress_of_released hi hh, ?_, fun hr => ?_⟩
    · have hidle : pressState (complete (classify s.pcnt[i]).code (clearPress i s)) i = .idle := by
        simp only [pressState, complete_hist, clearPress_hist, complete_pcnt, clearPress_pcnt_same, if_neg hh, if_pos]
      rw [hidle, pressState, if_neg hh]
      by_cases hz : s.pcnt[i] = 0
      · rw [if_pos hz]
      · rw [if_neg hz]
    · have hcount : s.pcnt[i] ≠ 0 := fun hz => hr (by rw [hz]; rfl)
      rw [pressState, if_neg hh, if_neg hcount]

end Sys2Proof.Machine

end

/-! ## The clock cycle: totality, reset, frames and invariants

What every cycle leaves unchanged when it is neither a reset nor a tick, the reset cycle and the accepted command as
one equation each, and the invariants of 10_state.md R40 kept by each operation a cycle is made of. -/

section

namespace Sys2Proof.Machine

/-! ### Every cycle has a next state (42_tick_source.md R124) -/

/-- An accepted word answers the state that the event-level view computes for it. -/
theorem execWord_eq_applyEvent (w : CmdWord) (s : State) : execWord w s = .next (applyEvent (.hostCmd w) s) := by
  rcases execWord_cases w s with ⟨i, s', rsp, -, -, -, he⟩ | ⟨c, he, -⟩
  · simp only [applyEvent, he]
  · simp only [applyEvent, he]

theorem exists_step (s : State) : ∃ t, step s = .next t := by
  by_cases ha : (portReady s && (currentInputs s).cmdValid) = true
  · exact ⟨_, by rw [step_eq, if_pos ha, execWord_eq_applyEvent]⟩
  · exact ⟨_, by rw [step_eq, if_neg ha]⟩

/-- Settles O10: every branch of the cycle answers a next state, and no cycle writes the parameters. -/
theorem everyStateHasANextStep : Obligations.EveryStateHasANextStep := by
  unfold Obligations.EveryStateHasANextStep
  intro s
  obtain ⟨t, ht⟩ := exists_step s
  exact ⟨t, ht, step_cfg ht⟩

/-! ### The cycle of an accepted command -/

theorem step_of_accepted {s : State} (hready : portReady s = true) (hv : (currentInputs s).cmdValid = true) :
    step s = execWord (currentInputs s).cmd (countdown (passInputs s)) := by
  rw [step_eq, hready, hv]
  rfl

/-- Settles O27: the port is ready, and the state the countdown leaves is the one written out. -/
theorem stepRunsDecodedCommand : Obligations.StepRunsDecodedCommand := by
  unfold Obligations.StepRunsDecodedCommand
  intro s i hr hdue hv hf hd
  have hready : portReady s = true := portReady_iff.2 ⟨hr, hf, fun ⟨hrun, hp⟩ => hdue hrun hp⟩
  rw [step_of_accepted hready hv, execWord, hd, countdown_passInputs]

/-- Settles O20: TICK_CTL on the state the cycle's countdown leaves; it reloads PRESC only where the countdown did not
move it. -/
theorem tickCtlCycleNeverPostponesATick : Obligations.TickCtlCycleNeverPostponesATick := by
  unfold Obligations.TickCtlCycleNeverPostponesATick
  intro s run hr hv hd hf hdue
  refine ⟨_, (stepRunsDecodedCommand s _ hr hdue hv hf hd).trans (exec_tickCtl run _), rfl, rfl, ?_⟩
  cases s.run with
  | true => simp
  | false => simp

/-! ### The reset cycle (70_reset_and_hazards.md R220) -/

theorem step_of_rst {s : State} (hr : (currentInputs s).rst = true) :
    step s = .next (markRefused (currentInputs s).cmdValid (applyReset (passInputs s))) := by
  rw [step_unaccepted (.inl (by simp [portReady, hr])), idleCycle, if_pos hr]

theorem getElem_zero_four : ∀ p : Fin 4, (#v[0x00, 0x00, 0x00, 0x00] : Vector Byte 4)[p] = 0x00 := by decide

theorem getElem_zero_two : ∀ i : Fin 2, (#v[0x00, 0x00] : Vector Byte 2)[i] = 0x00 := by decide

/-- Settles O7: a reset cycle is the reset of every item, whatever is due or presented. -/
theorem rstCycleResetsEverything : Obligations.RstCycleResetsEverything := by
  unfold Obligations.RstCycleResetsEverything
  intro s hr
  refine ⟨_, step_of_rst hr, getElem_zero_four, rfl, rfl, getElem_zero_two, getElem_zero_two, rfl, rfl, rfl, ?_, rfl,
    rfl, ?_, rfl, rfl, rfl, rfl, rfl⟩
  · simp
  · simp

/-! ### When a cycle ticks (42_tick_source.md R124) -/

theorem execWord_out_tick {w : CmdWord} {s t : State} (h : execWord w s = .next t) : t.out.tick = false := by
  rcases execWord_cases w s with ⟨i, s', rsp, -, -, -, he⟩ | ⟨c, he, -⟩ <;> cases he.symm.trans h
  · rfl
  · rfl

theorem step_out_tick_iff {s t : State} (h : step s = .next t) :
    t.out.tick = true ↔ (currentInputs s).rst = false ∧ s.run = true ∧ s.presc = 0 := by
  cases step_cases h with
  | reset hr ht => simp [ht, hr, CycleOutputs.quiet]
  | tick hr hrun hp ht => simp [ht, hr, hrun, hp, tickCycle]
  | command hr hd hv hf ht =>
    rw [execWord_out_tick ht]
    exact ⟨nofun, fun ⟨_, hdue⟩ => absurd hdue (not_due hd)⟩
  | quiet hr hd hn ht =>
    rw [ht]
    exact ⟨nofun, fun ⟨_, hdue⟩ => absurd hdue (not_due hd)⟩

/-- Settles O29: the ports are read off the state and the step itself. -/
theorem outputPortsOfACycle : Obligations.OutputPortsOfACycle := by
  unfold Obligations.OutputPortsOfACycle
  intro s t h
  have hcycle : clockCycle s = .next t := h
  exact ⟨by simp only [portsThisCycle, hcycle], step_out_tick_iff h⟩

/-! ### What a cycle leaves unchanged (60_exceptions.md R205) -/

/-- An accepted word leaves what only ticks write, and clears a press counter or leaves it. -/
theorem execWord_frame {w : CmdWord} {s t : State} (h : execWord w s = .next t) :
    t.tcnt = s.tcnt ∧ t.hist = s.hist ∧ t.segOut = s.segOut ∧ t.digSel = s.digSel ∧
    (∀ i : Fin 2, t.pcnt[i] = s.pcnt[i] ∨ t.pcnt[i] = 0x00) ∧ t.out.pins = [] := by
  rcases execWord_cases w s with ⟨i, s', rsp, -, -, hw, he⟩ | ⟨c, he, -⟩ <;> cases he.symm.trans h
  · obtain ⟨-, htcnt, hhist, hseg, hdig, -⟩ := hw.frame
    refine ⟨htcnt, hhist, hseg, hdig, fun k => or_iff_not_imp_left.2 fun hne => ?_, rfl⟩
    obtain ⟨hzero, -⟩ := hw.pollPress_of_pcnt_ne hne
    exact hzero
  · exact ⟨rfl, rfl, rfl, rfl, fun _ => .inl rfl, rfl⟩

theorem step_frame_of_not_due {s t : State} (h : step s = .next t) (hr : (currentInputs s).rst = false)
    (hdue : ¬ (s.run = true ∧ s.presc = 0)) :
    t.tcnt = s.tcnt ∧ t.hist = s.hist ∧ t.segOut = s.segOut ∧ t.digSel = s.digSel ∧
    (∀ i : Fin 2, t.pcnt[i] = s.pcnt[i] ∨ t.pcnt[i] = 0x00) ∧ t.out.pins = [] := by
  cases step_cases h with
  | reset hr' ht => simp [hr] at hr'
  | tick _ hrun hp ht => exact absurd ⟨hrun, hp⟩ hdue
  | command _ _ _ _ ht => simpa using execWord_frame ht
  | quiet _ _ _ ht => simp [ht, CycleOutputs.quiet]

theorem satInc_ge {sat c : Byte} (h : c ≤ sat) : c ≤ satInc sat c := by
  by_cases hc : c < sat
  · rw [BitVec.le_def, satInc_of_lt hc]
    omega
  · rwa [satInc_of_ge hc]

/-- A tick never lowers a counter that is within its ceiling. -/
theorem tick_pcnt_ge (swN : BitVec 2) {s : State} {i : Fin 2} (h : s.pcnt[i] ≤ s.cfg.pressSat) :
    s.pcnt[i] ≤ (tick swN s).pcnt[i] := by
  rw [tick_pcnt_get]
  by_cases hc : s.tcnt = 255 ∧ s.hist[i] = 0
  · obtain ⟨ht, hh⟩ := hc
    rw [accumulate_of_boundary ht hh]
    exact satInc_ge h
  · rw [accumulate_of_not hc]
    exact BitVec.le_refl _

/-- Settles O33: a cycle without a tick by its frame, a tick cycle by the equation of TICK. -/
theorem agentsWriteTheirOwnRegisters : Obligations.AgentsWriteTheirOwnRegisters := by
  unfold Obligations.AgentsWriteTheirOwnRegisters
  intro s t h hr
  refine ⟨fun hn => step_frame_of_not_due h hr fun hdue => ?_, fun hy => ?_⟩
  · rw [(step_out_tick_iff h).2 ⟨hr, hdue⟩] at hn
    cases hn
  · obtain ⟨-, hrun, hp⟩ := (step_out_tick_iff h).1 hy
    cases (step_of_tick hr hrun hp).symm.trans h
    exact ⟨rfl, rfl, rfl, rfl, rfl, fun i => tick_pcnt_ge (currentInputs s).swN⟩

/-! ### What the event-level view does not see (20_memory.md R62) -/

@[simp] theorem eventView_markRefused (b : Bool) (s : State) : eventView (markRefused b s) = eventView s := rfl

@[simp] theorem eventView_quietCycle (s : State) : eventView (quietCycle s) = eventView s := rfl

@[simp] theorem eventView_countdown_passInputs (s : State) :
    eventView (countdown (passInputs s)) = eventView s := by
  rw [countdown_passInputs]
  rfl

/-- Settles O32: without RUN no tick is due, the countdown holds, and without an accepted command the cycle is the
quiet one. -/
theorem stoppedCoreHoldsItsState : Obligations.StoppedCoreHoldsItsState := by
  unfold Obligations.StoppedCoreHoldsItsState
  intro s hrun hr
  obtain ⟨t, h⟩ := exists_step s
  have hdue : ¬ (s.run = true ∧ s.presc = 0) := by simp [hrun]
  obtain ⟨htcnt, hhist, hseg, hdig, -, hpins⟩ := step_frame_of_not_due h hr hdue
  have hnotick : t.out.tick = false := by
    rw [← Bool.not_eq_true, step_out_tick_iff h]
    exact fun ⟨_, hdue'⟩ => hdue hdue'
  refine ⟨t, h, hnotick, hpins, htcnt, hhist, hseg, hdig, fun hn => ?_⟩
  cases step_cases h with
  | reset hr' _ => simp [hr] at hr'
  | tick _ hrun' hp _ => exact absurd ⟨hrun', hp⟩ hdue
  | command _ _ hv hf _ => simp [hv, hf] at hn
  | quiet _ _ _ ht =>
    refine ⟨?_, by simp [ht, hrun]⟩
    rw [ht, eventView_markRefused, eventView_quietCycle, eventView_countdown_passInputs]

/-! ### The invariants (10_state.md R40) -/

theorem faultCode_range (c : Fault) : 1 ≤ (faultCode c).toNat ∧ (faultCode c).toNat ≤ 4 := by
  cases c <;> decide

theorem Inv.countdown_passInputs {s : State} (h : Inv s) : Inv (countdown (passInputs s)) := by
  rw [Machine.countdown_passInputs]
  refine ⟨h.legal, h.digSel, h.pcnt, ?_, h.noFault, h.faultCode⟩
  have hbound := h.presc
  cases s.run with
  | true => exact (Nat.sub_le _ _).trans hbound
  | false => exact hbound

theorem Writes.presc_eq {s s' : State} {i : Instr} {rsp : Byte} (h : Writes s i s' rsp) :
    s'.presc = s.presc ∨ s'.presc = s.cfg.tickPeriod - 1 := by
  cases h with
  | tickCtl run =>
    rw [setRun_presc]
    split
    · exact .inr rfl
    · exact .inl rfl
  | _ => exact .inl rfl

theorem Inv.complete {s s' : State} {i : Instr} {rsp : Byte} (h : Inv s) (hw : Writes s i s' rsp) :
    Inv (complete rsp s') := by
  obtain ⟨hcfg, -, -, -, hdig, hflt, hfcode, -, -⟩ := hw.frame
  constructor
  case legal => simpa [hcfg] using h.legal
  case digSel => simpa [hdig] using h.digSel
  case pcnt =>
    intro k
    rw [complete_pcnt, complete_cfg, hcfg]
    by_cases hk : s'.pcnt[k] = s.pcnt[k]
    · exact hk ▸ h.pcnt k
    · obtain ⟨hzero, -⟩ := hw.pollPress_of_pcnt_ne hk
      exact hzero ▸ Nat.zero_le _
  case presc =>
    have hbound := h.presc
    rcases hw.presc_eq with hp | hp <;> simp only [complete_presc, complete_cfg, hp, hcfg]
    · exact hbound
    · exact Nat.le_refl _
  case noFault => simpa [hflt, hfcode] using h.noFault
  case faultCode => simpa [hflt, hfcode] using h.faultCode

theorem Inv.takeFault {s : State} (h : Inv s) (c : Fault) : Inv (takeFault c s) :=
  ⟨h.legal, h.digSel, h.pcnt, h.presc, nofun, fun _ => faultCode_range c⟩

theorem Inv.execWord {s t : State} {w : CmdWord} (h : Inv s) (ht : execWord w s = .next t) : Inv t := by
  rcases execWord_cases w s with ⟨i, s', rsp, -, -, hw, he⟩ | ⟨c, he, -⟩ <;> cases he.symm.trans ht
  · exact h.complete hw
  · exact h.takeFault c

theorem Inv.of_reset {s t : State} (h : Inv s) (hr : (currentInputs s).rst = true) (ht : step s = .next t) :
    Inv t := by
  cases (step_of_rst hr).symm.trans ht
  constructor
  case legal => simpa using h.legal
  case digSel => exact .inl rfl
  case pcnt =>
    intro i
    rw [markRefused_pcnt, applyReset_pcnt, getElem_zero_two]
    exact Nat.zero_le _
  case presc => exact Nat.le_refl _
  case noFault => exact fun _ => rfl
  case faultCode => exact nofun

/-- What a tick stores in PCNT[i] is within the ceiling if the counter was. -/
theorem tick_pcnt_le (swN : BitVec 2) {s : State} {i : Fin 2} (h : s.pcnt[i] ≤ s.cfg.pressSat) :
    (tick swN s).pcnt[i] ≤ s.cfg.pressSat := by
  rw [tick_pcnt_get]
  by_cases hc : s.tcnt = 255 ∧ s.hist[i] = 0
  · obtain ⟨ht, hh⟩ := hc
    rw [accumulate_of_boundary ht hh]
    exact satInc_le _ _
  · rwa [accumulate_of_not hc]

theorem tick_digSel_oneHot (swN : BitVec 2) (s : State) :
    (tick swN s).digSel = 0b0000 ∨ ∃ d : Fin 4, (tick swN s).digSel = 1#4 <<< d.val := by
  rw [tick_digSel]
  split
  · exact .inr ⟨digitOf s.tcnt, rfl⟩
  · exact .inl rfl

theorem Inv.of_tick {s t : State} (h : Inv s) (hr : (currentInputs s).rst = false) (hrun : s.run = true)
    (hp : s.presc = 0) (ht : step s = .next t) : Inv t := by
  cases (step_of_tick hr hrun hp).symm.trans ht
  exact ⟨h.legal, tick_digSel_oneHot (currentInputs s).swN s,
    fun i => tick_pcnt_le (currentInputs s).swN (h.pcnt i), Nat.le_refl _, h.noFault, h.faultCode⟩

theorem Inv.step {s t : State} (h : Inv s) (ht : step s = .next t) : Inv t := by
  cases step_cases ht with
  | reset hr _ => exact h.of_reset hr ht
  | tick hr hrun hp _ => exact h.of_tick hr hrun hp ht
  | command _ _ _ _ hw => exact h.countdown_passInputs.execWord hw
  | quiet _ _ _ hq =>
    have hc := h.countdown_passInputs
    exact hq ▸ ⟨hc.legal, hc.digSel, hc.pcnt, hc.presc, hc.noFault, hc.faultCode⟩

/-- Settles O9: each of the four kinds of cycle keeps the invariants; a tick needs RUN = 1. -/
theorem everyCycleKeepsInvariants : Obligations.EveryCycleKeepsInvariants := by
  unfold Obligations.EveryCycleKeepsInvariants
  refine fun s t h ht => ⟨h.step ht, fun hrun => ?_⟩
  rw [← Bool.not_eq_true, step_out_tick_iff ht]
  simp [hrun]

/-! ### The state after reset (10_state.md R38) -/

/-- The parameters at reset are legal for every choice of the open TICK_PERIOD (log entries 2 and 3). -/
theorem reference_legal : Params.reference.Legal := by
  have hperiod : 2 ≤ Config.tickPeriod ∧ Config.tickPeriod ≤ 2 ^ 16 := by
    unfold Config.tickPeriod
    omega
  exact ⟨⟨hperiod.1, hperiod.2, by decide, by decide⟩, by decide, by decide, by decide⟩

/-- Settles O6: each item by evaluation, the parameters by the bounds of the open TICK_PERIOD. -/
theorem resetStateValues : Obligations.ResetStateValues := by
  unfold Obligations.ResetStateValues
  exact ⟨getElem_zero_four, rfl, rfl, getElem_zero_two, getElem_zero_two, rfl, rfl, rfl, rfl, rfl, rfl,
    reference_legal⟩

/-- Settles O8: every latch is 0, the countdown is at its bound, and the parameters are legal. -/
theorem invariantsHoldAtReset : Obligations.InvariantsHoldAtReset := by
  unfold Obligations.InvariantsHoldAtReset
  exact ⟨reference_legal, .inl rfl, fun i => (getElem_zero_two i).symm ▸ Nat.zero_le _, Nat.le_refl _,
    fun _ => rfl, nofun⟩

end Sys2Proof.Machine

end

/-! ## Runs of clock cycles: the period of the ticks, faults, a well-formed host

One induction over the cycles of a trace. Along a trace whose source keeps running, PRESC and the cycle number add up to
the first countdown and whole periods, so the cycles that tick are known. -/

section

namespace Sys2Proof.Machine

/-- What holds at the start of a trace and is kept by each of its cycles holds at every point of it. -/
theorem Trace.induction {n : Nat} {u : Nat → State} {P : Nat → State → Prop} (hu : Trace n u) (start : P 0 (u 0))
    (keep : ∀ j < n, P j (u j) → step (u j) = .next (u (j + 1)) → P (j + 1) (u (j + 1))) :
    ∀ j ≤ n, P j (u j) := by
  intro j
  induction j with
  | zero => exact fun _ => start
  | succ j ih => exact fun hj => keep j hj (ih (Nat.le_of_succ_le hj)) (hu j hj)

theorem Trace.take {n m : Nat} {u : Nat → State} (hu : Trace n u) (hm : m ≤ n) : Trace m u :=
  fun j hj => hu j (hj.trans_le hm)

theorem Trace.cfg_eq_of_le {n j : Nat} {u : Nat → State} (hu : Trace n u) (hj : j ≤ n) : (u j).cfg = (u 0).cfg :=
  (hu.take hj).cfg_eq

/-! ### The countdown of a running source (42_tick_source.md R124) -/

/-- While RUN = 1, PRESC reloads from 0 and goes down by one otherwise, whatever the host does. -/
theorem step_presc_of_running {s t : State} (h : step s = .next t) (hr : (currentInputs s).rst = false)
    (hrun : s.run = true) : t.presc = if s.presc = 0 then s.cfg.tickPeriod - 1 else s.presc - 1 := by
  cases step_cases h with
  | reset hr' _ => simp [hr] at hr'
  | tick _ _ hp ht => simp [ht, hp, tickCycle]
  | command _ hd _ _ ht =>
    have hp : s.presc ≠ 0 := fun hp => not_due hd ⟨hrun, hp⟩
    have hkept : t.presc = (countdown (passInputs s)).presc := by
      rcases execWord_cases (currentInputs s).cmd (countdown (passInputs s)) with
        ⟨i, s', rsp, -, -, hw, he⟩ | ⟨c, he, -⟩ <;> cases he.symm.trans ht
      · refine by_contra fun hne => ?_
        obtain ⟨-, hstopped⟩ := hw.start_of_presc_ne hne
        simp [hrun] at hstopped
      · rfl
    simp [hkept, hp, hrun]
  | quiet _ hd _ ht =>
    have hp : s.presc ≠ 0 := fun hp => not_due hd ⟨hrun, hp⟩
    simp [ht, hp, hrun]

/-- PRESC and the cycle number add up to the first countdown and whole periods. -/
theorem Trace.presc_add_eq {n : Nat} {u : Nat → State} (hu : Trace n u) (hl : (u 0).cfg.Legal)
    (hp : (u 0).presc ≤ (u 0).cfg.tickPeriod - 1)
    (hrun : ∀ j < n, (currentInputs (u j)).rst = false ∧ (u j).run = true) :
    ∀ j ≤ n, (u j).presc < (u 0).cfg.tickPeriod ∧
      ∃ m, (u j).presc + j = (u 0).presc + m * (u 0).cfg.tickPeriod := by
  obtain ⟨⟨hperiod, -⟩, -⟩ := hl
  refine hu.induction (P := fun j s => s.presc < (u 0).cfg.tickPeriod ∧
    ∃ m, s.presc + j = (u 0).presc + m * (u 0).cfg.tickPeriod) ⟨by omega, 0, by simp⟩ ?_
  intro j hj ⟨hlt, m, hm⟩ hstep
  obtain ⟨hr, hjrun⟩ := hrun j hj
  have hnext := step_presc_of_running hstep hr hjrun
  rw [hu.cfg_eq_of_le hj.le] at hnext
  by_cases hz : (u j).presc = 0
  · rw [if_pos hz] at hnext
    exact ⟨by omega, m + 1, by rw [Nat.add_mul]; omega⟩
  · rw [if_neg hz] at hnext
    exact ⟨by omega, m, by omega⟩

/-- A running source ticks in the cycle its countdown names and every period after it. -/
theorem Trace.presc_eq_zero_iff {n : Nat} {u : Nat → State} (hu : Trace n u) (hl : (u 0).cfg.Legal)
    (hp : (u 0).presc ≤ (u 0).cfg.tickPeriod - 1)
    (hrun : ∀ j < n, (currentInputs (u j)).rst = false ∧ (u j).run = true) {j : Nat} (hj : j ≤ n) :
    (u j).presc = 0 ↔ ∃ m, j = (u 0).presc + m * (u 0).cfg.tickPeriod := by
  obtain ⟨hlt, m, hm⟩ := hu.presc_add_eq hl hp hrun j hj
  constructor
  · exact fun hz => ⟨m, by omega⟩
  · rintro ⟨m', hm'⟩
    have hdiff : (u j).presc = (m - m') * (u 0).cfg.tickPeriod := by
      rw [Nat.sub_mul]
      omega
    have hzero : m - m' = 0 := by
      by_contra hne
      exact absurd (Nat.le_mul_of_pos_left (u 0).cfg.tickPeriod (Nat.pos_of_ne_zero hne)) (by omega)
    rw [hdiff, hzero, Nat.zero_mul]

/-! ### After a start (42_tick_source.md R125) -/

/-- An accepted word is a cycle without reset and without a due tick, the port open. -/
theorem accepted_of_cycleEvent {s : State} {w : CmdWord} (h : cycleEvent s = some (.hostCmd w)) :
    portReady s = true ∧ (currentInputs s).cmdValid = true ∧ (currentInputs s).cmd = w := by
  simp only [cycleEvent] at h
  split at h
  · cases h
  · split at h
    · cases h
    · split at h
      · next hr hd ha =>
        simp only [Bool.and_eq_true, Bool.not_eq_true'] at ha
        obtain ⟨hv, hf⟩ := ha
        cases h
        exact ⟨by simp [portReady, hr, hd, hf], hv, rfl⟩
      · cases h

/-- An accepted start leaves the countdown full. -/
theorem step_presc_of_start {s t : State} (h : step s = .next t) (hrun : s.run = false)
    (he : cycleEvent s = some (.hostCmd (encode (.tickCtl true)))) : t.presc = s.cfg.tickPeriod - 1 := by
  obtain ⟨hready, hv, hcmd⟩ := accepted_of_cycleEvent he
  have hexec := step_of_accepted hready hv
  rw [hcmd, execWord, decode_encode] at hexec
  cases (hexec.trans (exec_tickCtl true _)).symm.trans h
  simp [hrun]

/-- The multiples of P from P on, each one less: what the cycle numbers 1, 2, … count from 0. -/
theorem dvd_succ_iff {P j : Nat} (hP : 0 < P) : P ∣ j + 1 ↔ ∃ m, j = P - 1 + m * P := by
  constructor
  · rintro ⟨m, hm⟩
    obtain _ | m := m
    · simp at hm
    · exact ⟨m, by rw [Nat.mul_succ, Nat.mul_comm] at hm; omega⟩
  · rintro ⟨m, hm⟩
    exact ⟨m + 1, by rw [Nat.mul_succ, Nat.mul_comm]; omega⟩

/-- Settles O34: after the first cycle the countdown is full and the source keeps running, so the ticks come at its
period; the port is open in the other cycles while FLT = 0. -/
theorem ticksAreExactlyPeriodic : Obligations.TicksAreExactlyPeriodic := by
  unfold Obligations.TicksAreExactlyPeriodic
  intro n u hu hl hstopped hstart hrun j hj
  have hdue : (currentInputs (u j)).rst = false ∧
      ((u j).run = true ∧ (u j).presc = 0 ↔ 0 < j ∧ (u 0).cfg.tickPeriod ∣ j) := by
    obtain _ | j := j
    · obtain ⟨hready, -, -⟩ := accepted_of_cycleEvent hstart
      obtain ⟨hr, -, -⟩ := portReady_iff.1 hready
      simp [hr, hstopped]
    · obtain ⟨hr, hjrun⟩ := hrun (j + 1) (by omega) hj
      have hcfg : (u 1).cfg = (u 0).cfg := hu.cfg_eq_of_le (by omega)
      have hfull : (u 1).presc = (u 0).cfg.tickPeriod - 1 := step_presc_of_start (hu 0 (by omega)) hstopped hstart
      have htail : Trace (n - 1) fun k => u (k + 1) := fun k hk => hu (k + 1) (by omega)
      have hzero := htail.presc_eq_zero_iff (hcfg ▸ hl) (by rw [hcfg, hfull])
        (fun k hk => hrun (k + 1) (by omega) (by omega)) (j := j) (by omega)
      simp only [Nat.zero_add, hcfg, hfull] at hzero
      obtain ⟨⟨hperiod, -⟩, -⟩ := hl
      exact ⟨hr, by simp [hjrun, hzero, dvd_succ_iff (Nat.lt_of_lt_of_le Nat.zero_lt_two hperiod)]⟩
  obtain ⟨hr, hdue⟩ := hdue
  rw [step_out_tick_iff (hu j hj), step_out_cmdReady (hu j hj), portReady_iff, hdue]
  simp [hr]

/-! ### After a fault (60_exceptions.md R191) -/

/-- The host's side of a core after a fault: the latch, the closed port, and the registers only commands write. -/
def HostStopped (s t : State) : Prop :=
  t.flt = true ∧ t.fcode = s.fcode ∧ t.dbuf = s.dbuf ∧ t.light = s.light ∧ t.run = s.run

/-- A cycle of a faulted core accepts nothing: it is a tick or a quiet one. -/
theorem step_of_faulted {s t : State} (h : step s = .next t) (hr : (currentInputs s).rst = false)
    (hf : s.flt = true) : HostStopped s t ∧ t.out.cmdReady = false ∧ t.out.rsp = 0x00 := by
  cases step_cases h with
  | reset hr' _ => simp [hr] at hr'
  | tick _ _ _ ht => simp [ht, HostStopped, tickCycle, hf]
  | command _ _ _ hf' _ => simp [hf] at hf'
  | quiet _ _ _ ht => simp [ht, HostStopped, CycleOutputs.quiet, hf]

theorem Trace.hostStopped {n : Nat} {u : Nat → State} (hu : Trace n u) (hf : (u 0).flt = true)
    (hr : ∀ j < n, (currentInputs (u j)).rst = false) : ∀ j ≤ n, HostStopped (u 0) (u j) := by
  refine hu.induction (P := fun _ s => HostStopped (u 0) s) ⟨hf, rfl, rfl, rfl, rfl⟩ ?_
  rintro j hj ⟨hflt, hfcode, hdbuf, hlight, hrun⟩ hstep
  obtain ⟨⟨hflt', hfcode', hdbuf', hlight', hrun'⟩, -, -⟩ := step_of_faulted hstep (hr j hj) hflt
  exact ⟨hflt', hfcode'.trans hfcode, hdbuf'.trans hdbuf, hlight'.trans hlight, hrun'.trans hrun⟩

/-- Settles O36: the host's side stands still along the trace, RUN among it; so the source keeps running if it did,
and ticks where its countdown ends. -/
theorem faultStopsTheHostNotTheTicks : Obligations.FaultStopsTheHostNotTheTicks := by
  unfold Obligations.FaultStopsTheHostNotTheTicks
  intro n u hu hl hf hp hr j hj
  have hstopped := hu.hostStopped hf hr
  obtain ⟨hflt, -, -, -, hrun⟩ := hstopped j hj.le
  obtain ⟨hflt', hfcode', hdbuf', hlight', hrun'⟩ := hstopped (j + 1) hj
  obtain ⟨-, hready, hrsp⟩ := step_of_faulted (hu j hj) (hr j hj) hflt
  refine ⟨hflt', hfcode', hready, hrsp, hdbuf', hlight', hrun', ?_⟩
  rw [step_out_tick_iff (hu j hj), hrun]
  have hrunning (h0 : (u 0).run = true) : ∀ k < n, (currentInputs (u k)).rst = false ∧ (u k).run = true := by
    intro k hk
    obtain ⟨-, -, -, -, hkept⟩ := hstopped k hk.le
    exact ⟨hr k hk, hkept.trans h0⟩
  have hzero (h0 : (u 0).run = true) := hu.presc_eq_zero_iff hl hp (hrunning h0) hj.le
  exact ⟨fun ⟨_, h0, hz⟩ => ⟨h0, (hzero h0).1 hz⟩, fun ⟨h0, hm⟩ => ⟨hr j hj, h0, (hzero h0).2 hm⟩⟩

/-! ### A well-formed host (70_reset_and_hazards.md R237) -/

theorem execWord_safe {w : CmdWord} {s t : State} {i : Instr} (h : execWord w s = .next t) (hs : Safe s)
    (hd : decode w = .command i) (hi : i.wellFormed = true) : Safe t := by
  rcases execWord_cases w s with ⟨k, s', rsp, -, -, hw, he⟩ | ⟨c, -, hfaulty⟩
  · cases he.symm.trans h
    obtain ⟨-, -, -, -, -, hflt, -⟩ := hw.frame
    exact hflt.trans hs
  · simp [hfaulty i hd] at hi

theorem step_safe {s t : State} (h : step s = .next t) (hs : Safe s)
    (host : (currentInputs s).cmdValid = true →
      ∃ i : Instr, decode (currentInputs s).cmd = .command i ∧ i.wellFormed = true) : Safe t := by
  have hs' : Safe (countdown (passInputs s)) := by simpa [Safe] using hs
  cases step_cases h with
  | reset _ ht => simp [ht, Safe]
  | tick _ _ _ ht => simpa [ht, Safe, tickCycle] using hs
  | command _ _ hv _ ht =>
    obtain ⟨i, hd, hi⟩ := host hv
    exact execWord_safe ht hs' hd hi
  | quiet _ _ _ ht => exact ht ▸ hs'

/-- Settles O37: only an accepted word can fault, and a well-formed command does not. -/
theorem wellFormedHostNeverFaults : Obligations.WellFormedHostNeverFaults := by
  unfold Obligations.WellFormedHostNeverFaults
  exact fun n u hu hs host => hu.induction (P := fun _ s => Safe s) hs fun j hj hj' hstep =>
    step_safe hstep hj' (host j hj)

end Sys2Proof.Machine

end

/-! ## Histories and press counters

The bits of a history are the recent samples, so it is 0 exactly when they are; a press counter over any run of events,
exactly while nothing clears it and bounded by the counted windows otherwise. -/

section

namespace Sys2Proof.Machine

/-! ### The bits of a history (10_state.md R24) -/

theorem tickRun_concat (ws : List (BitVec 2)) (w : BitVec 2) (s : State) :
    tickRun (ws ++ [w]) s = tick w (tickRun ws s) := tickRun_append ws [w] s

/-- Bit k of a history is the sample k ticks back or, before the run's first tick, the old history's bit. -/
theorem tickRun_hist_getLsbD (ws : List (BitVec 2)) (s : State) (i : Fin 2) {k : Nat} (hk : k < 8) :
    (tickRun ws s).hist[i].getLsbD k =
      if h : k < ws.length then (ws[ws.length - 1 - k]'(by omega)).getLsbD i.val
      else s.hist[i].getLsbD (k - ws.length) := by
  induction ws using List.reverseRecOn generalizing k with
  | nil => simp
  | append_singleton ws w ih =>
    have hlen : (ws ++ [w]).length = ws.length + 1 := List.length_append
    rw [tickRun_concat, tick_hist_get]
    obtain _ | k := k
    · rw [shiftIn_getLsbD_zero, dif_pos (by simp)]
      simp
    · rw [shiftIn_getLsbD_succ _ _ hk, ih (Nat.lt_of_succ_lt hk)]
      by_cases hlt : k < ws.length
      · have hidx : (ws ++ [w]).length - 1 - (k + 1) = ws.length - 1 - k := by rw [hlen]; omega
        have hlt' : k + 1 < (ws ++ [w]).length := by rw [hlen]; omega
        rw [dif_pos hlt, dif_pos hlt']
        simp only [hidx]
        rw [List.getElem_append_left]
      · have hlt' : ¬ k + 1 < (ws ++ [w]).length := by rw [hlen]; omega
        rw [dif_neg hlt, dif_neg hlt', hlen, Nat.add_sub_add_right]

/-- Settles O43: a bit within the run is a sample of the run. -/
theorem historyBitsAreRecentSamples : Obligations.HistoryBitsAreRecentSamples := by
  unfold Obligations.HistoryBitsAreRecentSamples
  intro s ws i k hk h
  rw [tickRun_hist_getLsbD ws s i hk, dif_pos h]

/-! ### When a history is 0 (43_multiplexer_debounce.md R155) -/

theorem byte_eq_zero_iff (b : Byte) : b = 0 ↔ ∀ k < 8, b.getLsbD k = false := by
  constructor
  · rintro rfl k -
    exact BitVec.getLsbD_zero
  · intro h
    exact BitVec.eq_of_getLsbD_eq fun k hk => (h k hk).trans BitVec.getLsbD_zero.symm

/-- The last m elements of a list, by their distance from its end. -/
theorem forall_mem_drop_length_sub_iff {α : Type} {P : α → Prop} (ws : List α) (m : Nat) :
    (∀ w ∈ ws.drop (ws.length - m), P w) ↔
      ∀ k < m, ∀ h : k < ws.length, P (ws[ws.length - 1 - k]'(by omega)) := by
  simp only [List.mem_drop_iff_getElem]
  constructor
  · intro h k hk hlt
    refine h _ ⟨ws.length - 1 - k - (ws.length - m), by omega, ?_⟩
    congr 1
    omega
  · rintro h _ ⟨j, hj, rfl⟩
    have hfromEnd : ws.length - 1 - (ws.length - 1 - (ws.length - m + j)) = ws.length - m + j := by omega
    have hP := h (ws.length - 1 - (ws.length - m + j)) (by omega) (by omega)
    simpa only [hfromEnd] using hP

theorem hist_eq_zero_iff_of_le (ws : List (BitVec 2)) (s : State) (i : Fin 2) (h : 8 ≤ ws.length) :
    (tickRun ws s).hist[i] = 0 ↔ ∀ w ∈ ws.drop (ws.length - 8), w.getLsbD i.val = false := by
  rw [byte_eq_zero_iff, forall_mem_drop_length_sub_iff]
  refine forall₂_congr fun k hk => ?_
  have hlt : k < ws.length := by omega
  rw [tickRun_hist_getLsbD ws s i hk, dif_pos hlt]
  exact ⟨fun hbit _ => hbit, fun hbit => hbit hlt⟩

theorem hist_eq_zero_iff_of_cleared (ws : List (BitVec 2)) (s : State) (i : Fin 2) (h : ws.length ≤ 8)
    (hz : s.hist[i] = 0) : (tickRun ws s).hist[i] = 0 ↔ ∀ w ∈ ws, w.getLsbD i.val = false := by
  have hall : ws.drop (ws.length - 8) = ws := by rw [Nat.sub_eq_zero_of_le h, List.drop_zero]
  conv_rhs => rw [← hall]
  rw [ byte_eq_zero_iff, forall_mem_drop_length_sub_iff]
  refine forall₂_congr fun k hk => ?_
  rw [tickRun_hist_getLsbD ws s i hk]
  by_cases hlt : k < ws.length
  · rw [dif_pos hlt]
    exact ⟨fun hbit _ => hbit, fun hbit => hbit hlt⟩
  · simp [hlt, hz]

/-- Settles O44: a history is 0 exactly when its eight bits are, and each is a recent sample or a bit of the cleared
history. -/
theorem historyIsZeroIffHeld : Obligations.HistoryIsZeroIffHeld := by
  unfold Obligations.HistoryIsZeroIffHeld
  exact fun s ws i => ⟨hist_eq_zero_iff_of_le ws s i, hist_eq_zero_iff_of_cleared ws s i⟩

/-! ### Boundary ticks (43_multiplexer_debounce.md R149, R156) -/

/-- Settles O45: a boundary tick counts by the history it finds, which is that of the eight samples before it. -/
theorem boundaryCountsEarlierSamples : Obligations.BoundaryCountsEarlierSamples := by
  unfold Obligations.BoundaryCountsEarlierSamples
  intro s ws own i hlen htcnt hbelow
  obtain ⟨-, -, hcfg⟩ := tickRun_frame ws s
  rw [← hist_eq_zero_iff_of_le ws s i hlen, tickRun_concat, tick_pcnt_get]
  by_cases hh : (tickRun ws s).hist[i] = 0
  · rw [accumulate_of_boundary htcnt hh, hcfg, satInc, if_pos hbelow]
    exact iff_of_true rfl hh
  · rw [accumulate_of_not fun h => hh h.2]
    exact iff_of_false (by simp) hh

/-- Ticks up to the one that reaches TCNT = 255 count nothing. -/
theorem tickRun_pcnt_of_no_boundary (ws : List (BitVec 2)) (s : State) (i : Fin 2)
    (h : s.tcnt.toNat + ws.length ≤ 255) : (tickRun ws s).pcnt[i] = s.pcnt[i] := by
  induction ws generalizing s with
  | nil => rfl
  | cons w ws ih =>
    rw [List.length_cons] at h
    have hnot : ¬ (s.tcnt = 255 ∧ s.hist[i] = 0) := fun ⟨ht, _⟩ => by
      rw [ht] at h
      simp at h
    rw [tickRun_cons, ih, tick_pcnt_get, accumulate_of_not hnot]
    rw [tick_tcnt, nextTick_toNat]
    omega

/-- Settles O47: the first 255 ticks of the window count nothing and leave the history 0; the last is the boundary. -/
theorem alignedHeldWindowCountsOnce : Obligations.AlignedHeldWindowCountsOnce := by
  unfold Obligations.AlignedHeldWindowCountsOnce
  intro s ws i htcnt hlen held hceiling
  have hzero : s.tcnt.toNat = 0 := by rw [htcnt]; rfl
  have heldHist : (tickRun ws s).hist[i] = 0 :=
    (hist_eq_zero_iff_of_le ws s i (by omega)).2 fun w hw => held w (List.mem_of_mem_drop hw)
  have hwrap : (tickRun ws s).tcnt = 0 :=
    BitVec.eq_of_toNat_eq (by rw [tickRun_tcnt, hzero, hlen]; rfl)
  refine ⟨?_, heldHist, hwrap⟩
  obtain ⟨init, last, rfl⟩ : ∃ init last, ws = init ++ [last] :=
    ⟨_, _, (List.dropLast_append_getLast (List.ne_nil_of_length_pos (by omega))).symm⟩
  rw [List.length_append, List.length_singleton] at hlen
  have heldInit : (tickRun init s).hist[i] = 0 :=
    (hist_eq_zero_iff_of_le init s i (by omega)).2 fun w hw =>
      held w (List.mem_append_left _ (List.mem_of_mem_drop hw))
  have hlast : (tickRun init s).tcnt = 255 :=
    BitVec.eq_of_toNat_eq (by rw [tickRun_tcnt, hzero, Nat.zero_add, Nat.succ.inj hlen]; rfl)
  obtain ⟨-, -, hcfg⟩ := tickRun_frame init s
  rw [tickRun_concat, tick_pcnt_get, accumulate_of_boundary hlast heldInit, hcfg,
    tickRun_pcnt_of_no_boundary init s i (by omega)]
  exact satInc_min (Nat.min_eq_right hceiling).symm

/-! ### A press counter over a run of events (43_multiplexer_debounce.md R156, 44_press_classifier.md R176) -/

theorem countedWindows_cons (i : Fin 2) (e : Event) (es : List Event) (s : State) :
    countedWindows i (e :: es) s = countedWindows i [e] s + countedWindows i es (applyEvent e s) := rfl

theorem runEvents_cfg (es : List Event) (s : State) : (runEvents es s).cfg = s.cfg := by
  induction es generalizing s with
  | nil => rfl
  | cons e es ih => rw [runEvents_cons, ih, applyEvent_cfg]

/-- One event that does not clear adds what it counts, up to the ceiling. -/
theorem applyEvent_pcnt_min {e : Event} {s : State} {i : Fin 2} {n : Nat} (hc : clearsPress i e s = false)
    (h : s.pcnt[i].toNat = min s.cfg.pressSat.toNat n) :
    (applyEvent e s).pcnt[i].toNat = min s.cfg.pressSat.toNat (n + countedWindows i [e] s) := by
  rw [(applyEvent_pcnt e s i).2 hc]
  cases e with
  | tick w =>
    simp only [countedWindows]
    split
    · exact satInc_min h
    · exact h
  | hostCmd w => exact h
  | reset => exact h

theorem runEvents_pcnt_min {es : List Event} {s : State} {i : Fin 2} {n : Nat} (hc : neverClears i es s)
    (h : s.pcnt[i].toNat = min s.cfg.pressSat.toNat n) :
    (runEvents es s).pcnt[i].toNat = min s.cfg.pressSat.toNat (n + countedWindows i es s) := by
  induction es generalizing s n with
  | nil => exact h
  | cons e es ih =>
    obtain ⟨hce, hces⟩ := hc
    have hnext := applyEvent_pcnt_min hce h
    rw [← applyEvent_cfg e s] at hnext
    rw [runEvents_cons, ih hces hnext, applyEvent_cfg, countedWindows_cons i e es, Nat.add_assoc]

/-- Settles O46: by induction over the events, each of which counts at most once, up to the ceiling. -/
theorem pressCounterCountsHeldWindows : Obligations.PressCounterCountsHeldWindows := by
  unfold Obligations.PressCounterCountsHeldWindows
  intro s es i _ hz hc
  have hstart : s.pcnt[i].toNat = min s.cfg.pressSat.toNat 0 := by rw [hz, Nat.min_zero]; rfl
  simpa using runEvents_pcnt_min hc hstart

/-- Settles O48: the counter is the number of counted windows up to a ceiling above the thresholds, and a released
switch is classified by it and cleared. -/
theorem heldForNWindowsIsClassifiedByN : Obligations.HeldForNWindowsIsClassifiedByN := by
  unfold Obligations.HeldForNWindowsIsClassifiedByN
  intro s es i sw hl hz hc hi hh
  have hcount := pressCounterCountsHeldWindows s es i hl hz hc
  obtain ⟨⟨-, -, -, hsat⟩, -⟩ := hl
  have hsat' : 129 ≤ s.cfg.pressSat.toNat := hsat
  refine ⟨_, exec_pollPress_of_released hi hh, clearPress_pcnt_same i _, congrArg completedOutputs ?_⟩
  have hshort : (runEvents es s).pcnt[i].toNat ≤ 3 ↔ countedWindows i es s ≤ 3 := by omega
  have hlong : (runEvents es s).pcnt[i].toNat ≤ 128 ↔ countedWindows i es s ≤ 128 := by omega
  rw [classify_code]
  simp only [hshort, hlong]

/-! ### A press is reported once (44_press_classifier.md R173) -/

/-- One event raises a press counter by no more than it counts, whatever else it does. -/
theorem applyEvent_pcnt_le (e : Event) (s : State) (i : Fin 2) :
    (applyEvent e s).pcnt[i].toNat ≤ s.pcnt[i].toNat + countedWindows i [e] s := by
  obtain ⟨cleared, counted⟩ := applyEvent_pcnt e s i
  cases hc : clearsPress i e s with
  | true =>
    rw [cleared hc]
    exact Nat.zero_le _
  | false =>
    rw [counted hc]
    cases e with
    | tick w =>
      simp only [countedWindows]
      split
      · exact satInc_toNat_le _ _
      · exact Nat.le_refl _
    | hostCmd w => exact Nat.le_add_right _ _
    | reset => exact Nat.le_add_right _ _

theorem runEvents_pcnt_le (es : List Event) (s : State) (i : Fin 2) :
    (runEvents es s).pcnt[i].toNat ≤ s.pcnt[i].toNat + countedWindows i es s := by
  induction es generalizing s with
  | nil => exact Nat.le_refl _
  | cons e es ih =>
    rw [runEvents_cons, countedWindows_cons]
    have hone := applyEvent_pcnt_le e s i
    have hrest := ih (applyEvent e s)
    omega

/-- A switch that is held, or whose counter is at most 3, is reported NONE. -/
theorem exec_pollPress_none {sw : Nibble} {i : Fin 2} {s : State} (hi : sw.toNat = i.val)
    (h : s.pcnt[i].toNat ≤ 3 ∨ s.hist[i] = 0) :
    ∃ t, exec (.pollPress sw) s = .next t ∧ t.out = completedOutputs 0x00 := by
  by_cases hh : s.hist[i] = 0
  · exact ⟨_, exec_pollPress_of_held hi hh, rfl⟩
  · refine ⟨_, exec_pollPress_of_released hi hh, congrArg completedOutputs ?_⟩
    rw [classify_code, if_pos (h.resolve_right hh)]

/-- Settles O49: the first poll leaves the counter 0, so it is at most the number of windows counted since. -/
theorem pressIsReportedOnce : Obligations.PressIsReportedOnce := by
  unfold Obligations.PressIsReportedOnce
  intro s t es i sw hi hh hexec hquiet
  refine exec_pollPress_none hi (hquiet.imp_left fun hcount => ?_)
  cases (exec_pollPress_of_released hi hh).symm.trans hexec
  have hbound := runEvents_pcnt_le es (complete (classify s.pcnt[i]).code (clearPress i s)) i
  rw [complete_pcnt, clearPress_pcnt_same] at hbound
  exact hbound.trans (by simpa using hcount)

/-! ### The first ticks after reset (70_reset_and_hazards.md R224) -/

/-- A released switch fills its history with ones from the bottom. -/
theorem hist_of_released (i : Fin 2) (n : Nat) :
    (tickRun (List.replicate n 0b11) State.reset).hist[i].toNat = min (2 ^ n - 1) 255 := by
  induction n with
  | zero => revert i; decide
  | succ n ih =>
    have released : ∀ i : Fin 2, (0b11 : BitVec 2).getLsbD i.val = true := by decide
    rw [List.replicate_succ', tickRun_concat, tick_hist_toNat, ih, released, if_pos rfl, Nat.pow_succ]
    have hpos := Nat.two_pow_pos n
    rcases Nat.lt_or_ge n 8 with hn | hn
    · have hle : 2 ^ n ≤ 2 ^ 7 := Nat.pow_le_pow_right Nat.two_pos (Nat.le_of_lt_succ hn)
      omega
    · have hge : 2 ^ 8 ≤ 2 ^ n := Nat.pow_le_pow_right Nat.two_pos hn
      omega

/-- Settles O51: the history by induction over the ticks; at reset it is 0, so POLL_PRESS returns NONE. -/
theorem firstTicksAfterReset : Obligations.FirstTicksAfterReset := by
  unfold Obligations.FirstTicksAfterReset
  exact fun i sw n hi => ⟨hist_of_released i n, exec_pollPress_of_held hi (getElem_zero_two i)⟩

end Sys2Proof.Machine

end

/-! ## Two runs side by side: the event-level view, and the ceiling of the press counters

A relation of two states that every register write of a command keeps is kept by every command. It is used twice: for
states the event-level view cannot tell apart, and for two cores that differ in PRESS_SAT. -/

section

namespace Sys2Proof.Machine

/-! ### Relations of two states that commands keep -/

/-- The relation fixes what a command's checks and stores read, and each write of a command keeps it. -/
structure HostSim (R : State → State → Prop) : Prop where
  hist {s s'} : R s s' → s.hist = s'.hist
  segRom {s s'} : R s s' → s.cfg.segRom = s'.cfg.segRom
  complete {s s'} (rsp rsp' : Byte) : R s s' → R (complete rsp s) (complete rsp' s')
  takeFault {s s'} (c : Fault) : R s s' → R (takeFault c s) (takeFault c s')
  setSlot {s s'} (p : Fin 4) (code : Byte) : R s s' → R (setSlot p code s) (setSlot p code s')
  setLight {s s'} (light : Byte) : R s s' → R (setLight light s) (setLight light s')
  clearPress {s s'} (i : Fin 2) : R s s' → R (clearPress i s) (clearPress i s')
  setRun {s s'} (run : Bool) : R s s' → R (setRun run s) (setRun run s')

section

variable {R : State → State → Prop} {s s' t t' : State}

/-- Both states take the same branch of the command, so they perform the same write. -/
theorem HostSim.after_writes {i : Instr} {rsp rsp' : Byte} (hR : HostSim R) (h : R s s') (hw : Writes s i t rsp)
    (hw' : Writes s' i t' rsp') : R t t' := by
  cases hw with
  | nop => cases hw'; exact h
  | setDigit p v hp hv =>
    cases hw' with
    | setDigit p' v' hp' hv' =>
      obtain rfl : p = p' := Fin.ext (hp.symm.trans hp')
      obtain rfl : v = v' := Fin.ext (hv.symm.trans hv')
      rw [hR.segRom h]
      exact hR.setSlot p _ h
  | setLight light => cases hw'; exact hR.setLight light h
  | pollReleased i hi hh =>
    cases hw' with
    | pollReleased i' hi' hh' =>
      obtain rfl : i = i' := Fin.ext (hi.symm.trans hi')
      exact hR.clearPress i h
    | pollHeld i' hi' hh' =>
      obtain rfl : i = i' := Fin.ext (hi.symm.trans hi')
      exact absurd (hR.hist h ▸ hh') hh
  | pollHeld i hi hh =>
    cases hw' with
    | pollReleased i' hi' hh' =>
      obtain rfl : i = i' := Fin.ext (hi.symm.trans hi')
      exact absurd (hR.hist h ▸ hh) hh'
    | pollHeld i' hi' hh' => exact h
  | lookup v hv => cases hw'; exact h
  | tickCtl run => cases hw'; exact hR.setRun run h
  | readReg r hr => cases hw'; exact h

theorem HostSim.after_exec {i : Instr} (hR : HostSim R) (h : R s s') (ht : exec i s = .next t)
    (ht' : exec i s' = .next t') : R t t' := by
  rcases exec_cases i s with ⟨hi, s₁, rsp, hw, he⟩ | ⟨hi, he⟩ <;>
    rcases exec_cases i s' with ⟨hi', s₁', rsp', hw', he'⟩ | ⟨hi', he'⟩
  · cases he.symm.trans ht
    cases he'.symm.trans ht'
    exact hR.complete rsp rsp' (hR.after_writes h hw hw')
  · simp [hi] at hi'
  · simp [hi] at hi'
  · cases he.symm.trans ht
    cases he'.symm.trans ht'
    exact hR.takeFault _ h

theorem HostSim.after_execWord {w : CmdWord} (hR : HostSim R) (h : R s s') (ht : execWord w s = .next t)
    (ht' : execWord w s' = .next t') : R t t' := by
  unfold execWord at ht ht'
  cases hd : decode w with
  | command i =>
    rw [hd] at ht ht'
    exact hR.after_exec h ht ht'
  | reserved r =>
    rw [hd] at ht ht'
    cases ht
    cases ht'
    exact hR.takeFault _ h

end

/-- An operation that a view sees only through what it shows keeps the states the view cannot tell apart. -/
theorem view_congr (view op : State → State) (hop : ∀ s, view (op s) = view (op (view s))) {s s' : State}
    (h : view s = view s') : view (op s) = view (op s') := by
  rw [hop, h, ← hop]

/-- What a view shows is the same in states it cannot tell apart. -/
theorem shown_eq {α : Type} (view : State → State) (shown : State → α) (hshown : ∀ s, shown (view s) = shown s)
    {s s' : State} (h : view s = view s') : shown s = shown s' := by
  rw [← hshown, h, hshown]

theorem countdown_eq (s : State) :
    countdown s = { s with presc := if s.run then s.presc - 1 else s.presc } := by
  unfold countdown
  split <;> rfl

theorem setRun_eq (run : Bool) (s : State) : setRun run s = { s with
    run := run
    presc := if !s.run && run then s.cfg.tickPeriod - 1 else s.presc } := by
  unfold setRun
  split <;> rfl

/-! ### The event-level view (20_memory.md R62) -/

@[simp] theorem eventView_passInputs (s : State) : eventView (passInputs s) = eventView s := by
  rcases s with ⟨_, _, _, _, _, _, _, _, _, _, _, _, _ | ⟨_, _⟩, _, _⟩
  · rfl
  · rfl

theorem eventView_setRun (run : Bool) (s : State) : eventView (setRun run s) = eventView { s with run := run } := by
  rw [setRun_eq]
  rfl

theorem hostSim_eventView : HostSim fun s s' => eventView s = eventView s' where
  hist h := shown_eq eventView State.hist (fun _ => rfl) h
  segRom h := shown_eq eventView (fun s => s.cfg.segRom) (fun _ => rfl) h
  complete _ _ h := h
  takeFault c h := view_congr eventView (takeFault c) (fun _ => rfl) h
  setSlot p code h := view_congr eventView (setSlot p code) (fun _ => rfl) h
  setLight light h := view_congr eventView (setLight light) (fun _ => rfl) h
  clearPress i h := view_congr eventView (clearPress i) (fun _ => rfl) h
  setRun run h := by
    rw [eventView_setRun, eventView_setRun]
    exact view_congr eventView (fun s : State => { s with run := run }) (fun _ => rfl) h

/-- An event acts alike on states the view cannot tell apart. -/
theorem eventView_applyEvent_congr (e : Event) {s s' : State} (h : eventView s = eventView s') :
    eventView (applyEvent e s) = eventView (applyEvent e s') := by
  cases e with
  | hostCmd w => exact hostSim_eventView.after_execWord h (execWord_eq_applyEvent w s) (execWord_eq_applyEvent w s')
  | tick swN => exact view_congr eventView (tick swN) (fun _ => rfl) h
  | reset => exact view_congr eventView (applyReset) (fun _ => rfl) h

/-- The view of one cycle is the view of its event, if it has one. -/
theorem eventView_step {s t : State} (h : step s = .next t) :
    eventView t = eventView (runEvents (cycleEvent s).toList s) := by
  cases step_cases h with
  | reset hr ht =>
    have he : cycleEvent s = some .reset := by simp [cycleEvent, hr]
    rw [ht, he, eventView_markRefused]
    exact eventView_applyEvent_congr .reset (eventView_passInputs s)
  | tick hr hrun hp ht =>
    have he : cycleEvent s = some (.tick (currentInputs s).swN) := by simp [cycleEvent, hr, hrun, hp]
    rw [ht, he, eventView_markRefused]
    exact eventView_applyEvent_congr (.tick _) (eventView_passInputs s)
  | command hr hd hv hf ht =>
    have he : cycleEvent s = some (.hostCmd (currentInputs s).cmd) := by simp [cycleEvent, hr, hd, hv, hf]
    rw [execWord_eq_applyEvent] at ht
    cases ht
    rw [he]
    exact eventView_applyEvent_congr (.hostCmd _) (eventView_countdown_passInputs s)
  | quiet hr hd hn ht =>
    have he : cycleEvent s = none := by
      rcases hn with hn | hn <;> simp [cycleEvent, hr, hd, hn]
    rw [ht, he, eventView_markRefused, eventView_quietCycle, eventView_countdown_passInputs]
    rfl

theorem traceEvents_succ (j : Nat) (u : Nat → State) :
    traceEvents (j + 1) u = traceEvents j u ++ (cycleEvent (u j)).toList := by
  rw [traceEvents, List.range_succ, List.filterMap_append]
  rfl

theorem runEvents_append (es es' : List Event) (s : State) :
    runEvents (es ++ es') s = runEvents es' (runEvents es s) := List.foldl_append

theorem eventView_runEvents_congr (es : List Event) {s s' : State} (h : eventView s = eventView s') :
    eventView (runEvents es s) = eventView (runEvents es s') := by
  induction es generalizing s s' with
  | nil => exact h
  | cons e es ih => exact ih (eventView_applyEvent_congr e h)

/-- Settles O38: by induction over the cycles, each of which acts on the view as its event. -/
theorem cyclesProjectOntoEvents : Obligations.CyclesProjectOntoEvents := by
  unfold Obligations.CyclesProjectOntoEvents
  intro n u hu
  refine hu.induction (P := fun j s => eventView s = eventView (runEvents (traceEvents j u) (u 0))) rfl ?_ n
    (Nat.le_refl n)
  intro j _ hj hstep
  rw [traceEvents_succ, runEvents_append, eventView_step hstep]
  exact eventView_runEvents_congr _ hj

/-! ### Two cores with two ceilings (44_press_classifier.md R175) -/

/-- The state without PRESS_SAT, the press counters and the port record. -/
def ceilingView (s : State) : State :=
  { s with cfg := { s.cfg with pressSat := 0 }, pcnt := #v[0, 0], out := CycleOutputs.quiet false }

/-- Both counts are the same, or both are LONG. -/
def SameClass (c c' : Byte) : Prop := c = c' ∨ (128 < c.toNat ∧ 128 < c'.toNat)

/-- Two states that POLL_PRESS cannot tell apart, now or later. -/
structure CeilingSim (s s' : State) : Prop where
  view : ceilingView s = ceilingView s'
  pcnt : ∀ i : Fin 2, SameClass s.pcnt[i] s'.pcnt[i]
  ceiling : 129 ≤ s.cfg.pressSat.toNat ∧ 129 ≤ s'.cfg.pressSat.toNat

theorem SameClass.code_eq {c c' : Byte} (h : SameClass c c') : (classify c).code = (classify c').code := by
  rcases h with rfl | ⟨hc, hc'⟩
  · rfl
  · rw [classify_of_long hc, classify_of_long hc']

theorem satInc_toNat (sat c : Byte) :
    (satInc sat c).toNat = if c.toNat < sat.toNat then c.toNat + 1 else sat.toNat := by
  by_cases hc : c < sat
  · exact (satInc_of_lt hc).trans (if_pos hc).symm
  · exact (congrArg BitVec.toNat (satInc_of_ge hc)).trans (if_neg hc).symm

/-- Counting under two legal ceilings: they differ only above the LONG threshold. -/
theorem SameClass.satInc {sat sat' c c' : Byte} (h : SameClass c c') (hs : 129 ≤ sat.toNat ∧ 129 ≤ sat'.toNat) :
    SameClass (satInc sat c) (satInc sat' c') := by
  unfold SameClass at *
  rw [← BitVec.toNat_inj] at h ⊢
  rw [satInc_toNat, satInc_toNat]
  split <;> split <;> omega

section

variable {s s' t t' : State}

theorem CeilingSim.tcnt_eq (h : CeilingSim s s') : s.tcnt = s'.tcnt :=
  shown_eq ceilingView State.tcnt (fun _ => rfl) h.view

theorem CeilingSim.hist_eq (h : CeilingSim s s') : s.hist = s'.hist :=
  shown_eq ceilingView State.hist (fun _ => rfl) h.view

theorem hostSim_ceilingSim : HostSim CeilingSim where
  hist h := h.hist_eq
  segRom h := shown_eq ceilingView (fun s => s.cfg.segRom) (fun _ => rfl) h.view
  complete _ _ h := ⟨h.view, h.pcnt, h.ceiling⟩
  takeFault c h := ⟨view_congr ceilingView (takeFault c) (fun _ => rfl) h.view, h.pcnt, h.ceiling⟩
  setSlot p code h := ⟨view_congr ceilingView (setSlot p code) (fun _ => rfl) h.view, h.pcnt, h.ceiling⟩
  setLight light h := ⟨view_congr ceilingView (setLight light) (fun _ => rfl) h.view, h.pcnt, h.ceiling⟩
  clearPress i h := by
    refine ⟨h.view, fun k => ?_, h.ceiling⟩
    by_cases hk : k = i
    · subst hk
      exact .inl (by rw [clearPress_pcnt_same, clearPress_pcnt_same])
    · rw [clearPress_pcnt_of_ne _ hk, clearPress_pcnt_of_ne _ hk]
      exact h.pcnt k
  setRun run h := by
    have hview (s : State) : ceilingView (setRun run s) = ceilingView (setRun run (ceilingView s)) := by
      rw [setRun_eq, setRun_eq]
      rfl
    exact ⟨view_congr ceilingView (setRun run) hview h.view, by simpa using h.pcnt, by simpa using h.ceiling⟩

theorem CeilingSim.after_passInputs (h : CeilingSim s s') : CeilingSim (passInputs s) (passInputs s') := by
  have hview (s : State) : ceilingView (passInputs s) = ceilingView (passInputs (ceilingView s)) := by
    rcases s with ⟨_, _, _, _, _, _, _, _, _, _, _, _, _ | ⟨_, _⟩, _, _⟩
    · rfl
    · rfl
  exact ⟨view_congr ceilingView passInputs hview h.view, by simpa using h.pcnt, by simpa using h.ceiling⟩

theorem CeilingSim.after_countdown (h : CeilingSim s s') : CeilingSim (countdown s) (countdown s') := by
  have hview (s : State) : ceilingView (countdown s) = ceilingView (countdown (ceilingView s)) := by
    rw [countdown_eq, countdown_eq]
    rfl
  exact ⟨view_congr ceilingView countdown hview h.view, by simpa using h.pcnt, by simpa using h.ceiling⟩

/-- Both cores tick: they count at the same boundaries, each up to its own ceiling. -/
theorem CeilingSim.after_tickCycle (swN : BitVec 2) (h : CeilingSim s s') :
    CeilingSim (tickCycle swN s) (tickCycle swN s') := by
  refine ⟨view_congr ceilingView (tickCycle swN) (fun _ => rfl) h.view, fun i => ?_, h.ceiling⟩
  change SameClass (tick swN s).pcnt[i] (tick swN s').pcnt[i]
  rw [tick_pcnt_get, tick_pcnt_get]
  by_cases hc : s.tcnt = 255 ∧ s.hist[i] = 0
  · obtain ⟨ht, hh⟩ := hc
    rw [accumulate_of_boundary ht hh, accumulate_of_boundary (h.tcnt_eq ▸ ht) (h.hist_eq ▸ hh)]
    exact (h.pcnt i).satInc h.ceiling
  · rw [accumulate_of_not hc, accumulate_of_not (by rwa [← h.tcnt_eq, ← h.hist_eq])]
    exact h.pcnt i

theorem CeilingSim.after_applyReset (h : CeilingSim s s') : CeilingSim (applyReset s) (applyReset s') :=
  ⟨view_congr ceilingView (applyReset) (fun _ => rfl) h.view, fun _ => .inl rfl, h.ceiling⟩

theorem CeilingSim.currentInputs_eq (h : CeilingSim s s') : currentInputs s = currentInputs s' :=
  shown_eq ceilingView currentInputs (fun _ => rfl) h.view

theorem CeilingSim.tickDue_eq (h : CeilingSim s s') : tickDue s = tickDue s' :=
  shown_eq ceilingView tickDue (fun _ => rfl) h.view

theorem CeilingSim.portReady_eq (h : CeilingSim s s') : portReady s = portReady s' :=
  shown_eq ceilingView portReady (fun _ => rfl) h.view

theorem CeilingSim.cycleEvent_eq (h : CeilingSim s s') : cycleEvent s = cycleEvent s' :=
  shown_eq ceilingView cycleEvent (fun _ => rfl) h.view

theorem CeilingSim.after_idleCycle (h : CeilingSim s s') : CeilingSim (idleCycle s) (idleCycle s') := by
  simp only [idleCycle, ← h.currentInputs_eq, ← h.tickDue_eq]
  split
  · exact h.after_passInputs.after_applyReset
  · split
    · exact h.after_passInputs.after_tickCycle _
    · have hc := h.after_passInputs.after_countdown
      exact ⟨hc.view, hc.pcnt, hc.ceiling⟩

/-- Every cycle keeps the two cores alike: the same kind of cycle on both sides. -/
theorem CeilingSim.after_step (h : CeilingSim s s') (ht : step s = .next t) (ht' : step s' = .next t') :
    CeilingSim t t' := by
  rw [step_eq] at ht ht'
  rw [← h.portReady_eq, ← h.currentInputs_eq] at ht'
  by_cases ha : (portReady s && (currentInputs s).cmdValid) = true
  · rw [if_pos ha] at ht ht'
    exact hostSim_ceilingSim.after_execWord h.after_passInputs.after_countdown ht ht'
  · rw [if_neg ha] at ht ht'
    cases ht
    cases ht'
    have hi := h.after_idleCycle
    exact ⟨hi.view, hi.pcnt, hi.ceiling⟩

/-- POLL_PRESS reads a history that is the same and a counter of the same class. -/
theorem CeilingSim.pollPress_out {sw : Nibble} (h : CeilingSim s s') (ht : exec (.pollPress sw) s = .next t)
    (ht' : exec (.pollPress sw) s' = .next t') : t.out = t'.out := by
  by_cases hsw : 1 < sw.toNat
  · cases (exec_pollPress_of_outside s hsw).symm.trans ht
    cases (exec_pollPress_of_outside s' hsw).symm.trans ht'
    rfl
  · obtain ⟨i, hi⟩ : ∃ i : Fin 2, sw.toNat = i.val := ⟨⟨sw.toNat, by omega⟩, rfl⟩
    by_cases hh : s.hist[i] = 0
    · cases (exec_pollPress_of_held hi hh).symm.trans ht
      cases (exec_pollPress_of_held hi (h.hist_eq ▸ hh)).symm.trans ht'
      rfl
    · cases (exec_pollPress_of_released hi hh).symm.trans ht
      cases (exec_pollPress_of_released hi (h.hist_eq ▸ hh)).symm.trans ht'
      exact congrArg completedOutputs (h.pcnt i).code_eq

/-- The cycle that accepts a POLL_PRESS shows the same on both sides. -/
theorem CeilingSim.step_out {w : CmdWord} {sw : Nibble} (h : CeilingSim s s') (ht : step s = .next t)
    (ht' : step s' = .next t') (he : cycleEvent s = some (.hostCmd w)) (hd : decode w = .command (.pollPress sw)) :
    t.out = t'.out := by
  obtain ⟨hready, hv, rfl⟩ := accepted_of_cycleEvent he
  have accepted' : portReady s' = true ∧ (currentInputs s').cmdValid = true := by
    rw [← h.portReady_eq, ← h.currentInputs_eq]
    exact ⟨hready, hv⟩
  obtain ⟨hready', hv'⟩ := accepted'
  rw [step_of_accepted hready hv, execWord, hd] at ht
  rw [step_of_accepted hready' hv', ← h.currentInputs_eq, execWord, hd] at ht'
  exact h.after_passInputs.after_countdown.pollPress_out ht ht'

end

/-- Settles O50: the two cores are alike at the start and after every cycle, so they have the same events, and each
POLL_PRESS returns the same. -/
theorem pressSatInvisibleToPollPress : Obligations.PressSatInvisibleToPollPress := by
  unfold Obligations.PressSatInvisibleToPollPress
  intro n u v sat hu hv hl hsat hstart j hj
  obtain ⟨⟨-, -, -, hceiling⟩, -⟩ := hl
  have start : CeilingSim (u 0) (v 0) := by
    rw [hstart]
    exact ⟨rfl, fun _ => .inl rfl, hceiling, hsat⟩
  have alike := hu.induction (P := fun j s => CeilingSim s (v j)) start fun j hj h hstep => h.after_step hstep (hv j hj)
  have hcur := alike j hj.le
  exact ⟨hcur.cycleEvent_eq, fun w sw he hd => hcur.step_out (hu j hj) (hv j hj) he hd⟩

end Sys2Proof.Machine

end

/-! ## The display: dimming, shares and rotation over a run of ticks, and updates between ticks

A tick of a run selects by the tick counter it begins at, which is the run's start plus the ticks before it; so the lit
ticks of a window and each digit's share are counts over natural numbers. -/

section

namespace Sys2Proof.Machine

/-! ### The select of one tick of a run (43_multiplexer_debounce.md R141 to R144) -/

theorem digitOf_eq {t : Byte} {n : Nat} (h : t.toNat % 4 = n % 4) : digitOf t = ⟨n % 4, Nat.mod_lt _ (by decide)⟩ :=
  Fin.ext h

/-- A tick selects the digit of the tick counter if it is lit, and none otherwise. -/
theorem tick_selects_iff (swN : BitVec 2) (s : State) (d : Fin 4) :
    (tick swN s).digSel = 1#4 <<< d.val ↔
      s.tcnt.toNat % 4 = d.val ∧ (247 < s.tcnt.toNat ∨ s.light.toNat < s.tcnt.toNat) := by
  by_cases hlit : 247 < s.tcnt.toNat ∨ s.light.toNat < s.tcnt.toNat
  · obtain ⟨-, hdig, -⟩ := tick_drive_of_lit swN hlit
    rw [hdig]
    constructor
    · exact fun h => ⟨congrArg Fin.val (oneHot_inj (e := d) h), hlit⟩
    · exact fun ⟨hd, _⟩ => congrArg oneHot (Fin.ext hd)
  · obtain ⟨-, hdig, -⟩ := tick_drive_of_not_lit swN hlit
    rw [hdig]
    exact iff_of_false (fun h => oneHot_ne_zero d h.symm) fun ⟨_, h⟩ => hlit h

theorem tick_selects_some_iff (swN : BitVec 2) (s : State) :
    (tick swN s).digSel ≠ 0b0000 ↔ 247 < s.tcnt.toNat ∨ s.light.toNat < s.tcnt.toNat := by
  by_cases hlit : 247 < s.tcnt.toNat ∨ s.light.toNat < s.tcnt.toNat
  · obtain ⟨-, hdig, -⟩ := tick_drive_of_lit swN hlit
    rw [hdig]
    exact iff_of_true (oneHot_ne_zero _) hlit
  · obtain ⟨-, hdig, -⟩ := tick_drive_of_not_lit swN hlit
    rw [hdig]
    exact iff_of_false (not_not.2 rfl) hlit

theorem tickRun_take_tcnt (ws : List (BitVec 2)) (s : State) {k : Nat} (h : k ≤ ws.length) :
    (tickRun (ws.take k) s).tcnt.toNat = (s.tcnt.toNat + k) % 256 := by
  rw [tickRun_tcnt, List.length_take_of_le h]

theorem tickRun_take_light (ws : List (BitVec 2)) (s : State) (k : Nat) : (tickRun (ws.take k) s).light = s.light := by
  obtain ⟨hlight, -, -⟩ := tickRun_frame (ws.take k) s
  exact hlight

/-! ### A window of 256 ticks (43_multiplexer_debounce.md R150, R154) -/

section

variable {s : State} {ws : List (BitVec 2)}

/-- Tick t of a window begins at TCNT = t. -/
theorem window_tcnt (h0 : s.tcnt = 0) (hlen : ws.length = 256) {t : Nat} (ht : t < 256) :
    (tickRun (ws.take t) s).tcnt.toNat = t := by
  have hzero : s.tcnt.toNat = 0 := congrArg BitVec.toNat h0
  rw [tickRun_take_tcnt ws s (by omega), hzero, Nat.zero_add, Nat.mod_eq_of_lt ht]

theorem window_selects_some_iff (h0 : s.tcnt = 0) (hlen : ws.length = 256) {t : Nat} (ht : t < 256) :
    (tickRun (ws.take (t + 1)) s).digSel ≠ 0b0000 ↔ min s.light.toNat 247 < t := by
  rw [tickRun_take_succ ws s (hlen ▸ ht), tick_selects_some_iff, window_tcnt h0 hlen ht, tickRun_take_light]
  omega

theorem window_selects_iff (h0 : s.tcnt = 0) (hlen : ws.length = 256) (d : Fin 4) {t : Nat} (ht : t < 256) :
    (tickRun (ws.take (t + 1)) s).digSel = 1#4 <<< d.val ↔ t % 4 = d.val ∧ (247 < t ∨ s.light.toNat < t) := by
  rw [tickRun_take_succ ws s (hlen ▸ ht), tick_selects_iff, window_tcnt h0 hlen ht, tickRun_take_light]

end

theorem countP_range_congr {n : Nat} {p q : Nat → Bool} (h : ∀ t < n, p t = q t) :
    (List.range n).countP p = (List.range n).countP q :=
  List.countP_congr fun t ht => by rw [h t (List.mem_range.1 ht)]

/-- How many numbers below n are above m. -/
theorem countP_range_above (m n : Nat) : (List.range n).countP (fun t => decide (m < t)) = n - (m + 1) := by
  induction n with
  | zero => simp
  | succ n ih =>
    rw [List.range_succ, List.countP_append, ih, List.countP_singleton]
    by_cases h : m < n
    · simp only [h, decide_true, if_pos]
      omega
    · simp only [h, decide_false, Bool.false_eq_true, if_false]
      omega

/-- How many numbers below n are above m and d modulo 4. -/
theorem countP_range_above_mod_four (m n : Nat) (d : Fin 4) :
    (List.range n).countP (fun t => decide (t % 4 = d.val ∧ m < t)) = (n + 3 - d.val) / 4 - (m + 4 - d.val) / 4 := by
  have hd := d.isLt
  induction n with
  | zero =>
    rw [List.range_zero, List.countP_nil]
    omega
  | succ n ih =>
    rw [List.range_succ, List.countP_append, ih, List.countP_singleton]
    by_cases h : n % 4 = d.val ∧ m < n
    · simp only [h, and_self, decide_true, if_pos]
      omega
    · simp only [h, decide_false, Bool.false_eq_true, if_false]
      omega

/-- Settles O39: the ticks above min(LIGHT, 247) are lit, and these are counted. -/
theorem dutyCycleOfAWindow : Obligations.DutyCycleOfAWindow := by
  unfold Obligations.DutyCycleOfAWindow
  intro s ws h0 hlen
  refine ⟨fun t ht => window_selects_some_iff h0 hlen ht, ?_⟩
  have hlit : ∀ t < 256, ((tickRun (ws.take (t + 1)) s).digSel != 0b0000) = decide (min s.light.toNat 247 < t) :=
    fun t ht => by rw [Bool.eq_iff_iff, bne_iff_ne, decide_eq_true_iff, window_selects_some_iff h0 hlen ht]
  rw [countP_range_congr hlit, countP_range_above]
  omega

/-- Settles O40: digit d's share is the count of the numbers above min(LIGHT, 247) that are d modulo 4. -/
theorem shareOfEachDigit : Obligations.ShareOfEachDigit := by
  unfold Obligations.ShareOfEachDigit
  intro s ws h0 hlen driven share
  have hdriven (d : Fin 4) {t : Nat} (ht : t < 256) :
      driven d t ↔ t % 4 = d.val ∧ (247 < t ∨ s.light.toNat < t) := window_selects_iff h0 hlen d ht
  have hshare (d : Fin 4) : share d = (259 - d.val) / 4 - (min s.light.toNat 247 + 4 - d.val) / 4 := by
    have hcount : ∀ t < 256, decide (driven d t) = decide (t % 4 = d.val ∧ min s.light.toNat 247 < t) :=
      fun t ht => decide_eq_decide.2 ((hdriven d ht).trans (and_congr_right fun _ => by omega))
    exact (countP_range_congr hcount).trans (countP_range_above_mod_four _ 256 d)
  refine ⟨fun d t ht => hdriven d ht, fun hdark => ?_, fun hbright d => ?_, fun d d' => ?_⟩
  · simp [hshare, hdark]
  · have hd := d.isLt
    rw [hshare]
    omega
  · have hd := d.isLt
    have hd' := d'.isLt
    rw [hshare, hshare]
    omega

/-! ### Four ticks in a row (43_multiplexer_debounce.md R151) -/

/-- Each digit is d modulo 4 at one of four consecutive counts. -/
theorem exists_forall_add_mod_four_iff (n : Nat) (d : Fin 4) :
    ∃ k : Fin 4, ∀ k' : Fin 4, (n + k'.val) % 4 = d.val ↔ k' = k := by
  refine ⟨⟨(d.val + 4 - n % 4) % 4, Nat.mod_lt _ (by decide)⟩, fun k' => ?_⟩
  have hd := d.isLt
  have hk' := k'.isLt
  rw [Fin.ext_iff]
  simp only
  omega

/-- Settles O41: tick k begins at TCNT + k, so a lit one selects that count modulo 4, and four counts in a row have
each digit once. -/
theorem digitRotation : Obligations.DigitRotation := by
  unfold Obligations.DigitRotation
  intro s ws hlen
  have htake (k : Fin 4) :
      tickRun (ws.take (k.val + 1)) s = tick (ws[k.val]'(by omega)) (tickRun (ws.take k.val) s) :=
    tickRun_take_succ ws s (by omega)
  have htcnt (k : Fin 4) : (tickRun (ws.take k.val) s).tcnt.toNat = (s.tcnt.toNat + k.val) % 256 :=
    tickRun_take_tcnt ws s (by omega)
  refine ⟨fun k => ?_, fun hall d => ?_⟩
  · intro before after digit
    have hdigit : digitOf before.tcnt = digit := digitOf_eq (by rw [htcnt k]; omega)
    obtain ⟨hlight, hdbuf, -⟩ : before.light = s.light ∧ before.dbuf = s.dbuf ∧ before.cfg = s.cfg :=
      tickRun_frame (ws.take k.val) s
    rw [← hlight]
    refine ⟨htcnt k, fun hlit => ?_, fun hunlit => ?_⟩
    · obtain ⟨hseg, hdig, -⟩ := tick_drive_of_lit (ws[k.val]'(by omega)) hlit
      exact ⟨(congrArg State.digSel (htake k)).trans (hdig.trans (congrArg oneHot hdigit)),
        (congrArg State.segOut (htake k)).trans (hseg.trans (by simp only [hdigit, hdbuf]))⟩
    · obtain ⟨-, hdig, -⟩ := tick_drive_of_not_lit (ws[k.val]'(by omega)) hunlit
      exact (congrArg State.digSel (htake k)).trans hdig
  · obtain ⟨k, hk⟩ := exists_forall_add_mod_four_iff s.tcnt.toNat d
    refine ⟨k, fun k' => ?_⟩
    have hlit := hall k'
    rw [htake, tick_selects_some_iff] at hlit
    rw [htake, tick_selects_iff, and_iff_left hlit, htcnt, ← hk, Nat.mod_mod_of_dvd _ (by decide)]

/-! ### A display update that a tick overtakes (20_memory.md R60) -/

/-- The event of an accepted SET_DIGIT q of a value of the domain, without the decimal point. -/
def digitEvent (v : Fin 4 → Fin 20) (q : Fin 4) : Event :=
  .hostCmd (encode (.setDigit (BitVec.ofNat 4 q) false (BitVec.ofNat 7 (v q))))

theorem applyEvent_digitEvent (v : Fin 4 → Fin 20) (q : Fin 4) (s : State) :
    applyEvent (digitEvent v q) s = complete 0x00 (setSlot q s.cfg.segRom[v q] s) := by
  have hpos : (BitVec.ofNat 4 q).toNat = q.val := Nat.mod_eq_of_lt (by omega)
  have hvalue : (BitVec.ofNat 7 (v q)).toNat = (v q).val := Nat.mod_eq_of_lt (by omega)
  have hexec := exec_setDigit_of_eq false s hpos hvalue
  simp only [applyEvent, digitEvent, execWord, decode_encode, hexec]
  simp [dpMask]

/-- Each of the commands stores its own slot and leaves what a tick reads beside it. -/
theorem runEvents_digitEvents (v : Fin 4 → Fin 20) (l : List (Fin 4)) (s : State) :
    let t := runEvents (l.map (digitEvent v)) s
    (∀ q : Fin 4, t.dbuf[q] = if q ∈ l then s.cfg.segRom[v q] else s.dbuf[q]) ∧
      t.tcnt = s.tcnt ∧ t.light = s.light ∧ t.segOut = s.segOut := by
  induction l generalizing s with
  | nil => simp
  | cons p l ih =>
    obtain ⟨hdbuf, htcnt, hlight, hseg⟩ := ih (applyEvent (digitEvent v p) s)
    rw [applyEvent_digitEvent] at hdbuf htcnt hlight hseg
    rw [List.map_cons, runEvents_cons, applyEvent_digitEvent]
    refine ⟨fun q => ?_, htcnt, hlight, hseg⟩
    rw [hdbuf q, complete_dbuf]
    by_cases hq : q = p
    · subst hq
      rw [setSlot_dbuf_same]
      simp
    · rw [setSlot_dbuf_of_ne _ s hq]
      simp [hq]

/-- The first k commands of SHOW4 as events. -/
theorem show4_take_events (v : Fin 4 → Fin 20) (k : Nat) :
    (((show4 (BitVec.ofNat 7 (v 0)) (BitVec.ofNat 7 (v 1)) (BitVec.ofNat 7 (v 2)) (BitVec.ofNat 7 (v 3))).map
      encode).take k).map Event.hostCmd = ((List.finRange 4).take k).map (digitEvent v) := by
  rw [List.map_take, List.map_take]
  rfl

theorem mem_finRange_take_iff {n k : Nat} (q : Fin n) : q ∈ (List.finRange n).take k ↔ q.val < k := by
  rw [List.mem_take_iff_getElem]
  constructor
  · rintro ⟨j, hj, rfl⟩
    simpa using (lt_min_iff.1 hj).1
  · exact fun h => ⟨q.val, by simp [h], by simp⟩

/-- Settles O42: after the first k commands exactly the slots below k hold the new codes, and a tick reads the slot of
its digit as it stands. -/
theorem updateMayBeOvertakenByATick : Obligations.UpdateMayBeOvertakenByATick := by
  unfold Obligations.UpdateMayBeOvertakenByATick
  intro s v k swN _ value words t slot
  have ht : t = runEvents (((List.finRange 4).take k).map (digitEvent v)) s :=
    congrArg (runEvents · s) (show4_take_events v k)
  obtain ⟨hdbuf, htcnt, hlight, hseg⟩ := runEvents_digitEvents v ((List.finRange 4).take k) s
  rw [← ht] at hdbuf htcnt hlight hseg
  simp only [mem_finRange_take_iff] at hdbuf
  refine ⟨hdbuf, ?_⟩
  change (tick swN t).segOut = _
  by_cases hlit : 247 < s.tcnt.toNat ∨ s.light.toNat < s.tcnt.toNat
  · obtain ⟨hdrive, -, -⟩ := tick_drive_of_lit swN (s := t) (by rwa [htcnt, hlight])
    rw [if_pos hlit, hdrive, hdbuf, digitOf_eq (n := s.tcnt.toNat) (by rw [htcnt])]
  · obtain ⟨hdrive, -, -⟩ := tick_drive_of_not_lit swN (s := t) (by rwa [htcnt, hlight])
    rw [if_neg hlit, hdrive, hseg]

end Sys2Proof.Machine

end
